-- ==== Sys2Proof/Word.lean ====
section
/-! DEFINITION. The words the ACS moves and the closed sets of names its rules use: the agents
(R13), the wheels (R10), the channels (R23), the edge signs (R32) and the event outputs (R184).
Plain types only; whatever computes with them stands in the files under Machine/. -/

namespace Sys2Proof

/-- A transaction word, 32 bits (R81). -/
abbrev TxnWord := BitVec 32

/-- The contents of a host register, 16 bits (R25, R62). -/
abbrev RegVal := BitVec 16

/-- A register number, 0x0 to 0xF (R25). -/
abbrev RegNum := BitVec 4

/-- A raw conversion result, 10 bits unsigned (R6, R83). -/
abbrev Raw := BitVec 10

/-- A byte of a transaction word written as bytes (R63). -/
abbrev Byte := BitVec 8

/-- The three agents that issue transactions (R13). -/
inductive Agent where
  | host
  | converter
  | timeBase
  deriving DecidableEq, Repr, Inhabited

/-- The two wheels, `L` (0) and `R` (1) (R10). -/
inductive Wheel where
  | left
  | right
  deriving DecidableEq, Repr, Inhabited

/-- The six channels in rotation order, numbered 0 to 5 (R23). `CUR` holds only these (R22). -/
inductive Channel where
  | wheelL
  | wheelR
  | switches
  | irL
  | irR
  | battery
  deriving DecidableEq, Repr, Inhabited

/-- The edge sign, +1 or -1 (R21, R32). -/
inductive Sign where
  | plus
  | minus
  deriving DecidableEq, Repr, Inhabited

/-- The two one-shot event outputs (R184). -/
inductive EventOut where
  | tbIrq
  | convIrq
  deriving DecidableEq, Repr

end Sys2Proof
end

