-- ==== Sys2Proof/Syntax.lean ====
section
/-! DEFINITION. The transactions of the ACS, its "instruction set" (R2): one constructor for each
row of spec/opcode_table.json (16 RD, 16 WR, CONV, TB, RESET). An operand has exactly the width its
field has in the word (R83), so no constructor can hold a value the word cannot. -/

namespace Sys2Proof

/-- A transaction (R84). `v` is the write data, 16 bits; `raw` is the conversion result, 10 bits. -/
inductive Instr where
  /-- `RD CTRL` -/
  | rdCtrl
  /-- `RD STATUS` -/
  | rdStatus
  /-- `RD SAMPLE0` -/
  | rdSample0
  /-- `RD SAMPLE1` -/
  | rdSample1
  /-- `RD SAMPLE2` -/
  | rdSample2
  /-- `RD SAMPLE3` -/
  | rdSample3
  /-- `RD SAMPLE4` -/
  | rdSample4
  /-- `RD SAMPLE5` -/
  | rdSample5
  /-- `RD ENC_L` -/
  | rdEncL
  /-- `RD ENC_R` -/
  | rdEncR
  /-- `RD AVG_L` -/
  | rdAvgL
  /-- `RD AVG_R` -/
  | rdAvgR
  /-- `RD EDGE` -/
  | rdEdge
  /-- `RD TB_TICK` -/
  | rdTbTick
  /-- `RD TB_ELAPSED` -/
  | rdTbElapsed
  /-- `RD 15` -/
  | rd15
  /-- `WR CTRL, v` -/
  | wrCtrl (v : RegVal)
  /-- `WR STATUS, v` -/
  | wrStatus (v : RegVal)
  /-- `WR SAMPLE0, v` -/
  | wrSample0 (v : RegVal)
  /-- `WR SAMPLE1, v` -/
  | wrSample1 (v : RegVal)
  /-- `WR SAMPLE2, v` -/
  | wrSample2 (v : RegVal)
  /-- `WR SAMPLE3, v` -/
  | wrSample3 (v : RegVal)
  /-- `WR SAMPLE4, v` -/
  | wrSample4 (v : RegVal)
  /-- `WR SAMPLE5, v` -/
  | wrSample5 (v : RegVal)
  /-- `WR ENC_L, v` -/
  | wrEncL (v : RegVal)
  /-- `WR ENC_R, v` -/
  | wrEncR (v : RegVal)
  /-- `WR AVG_L, v` -/
  | wrAvgL (v : RegVal)
  /-- `WR AVG_R, v` -/
  | wrAvgR (v : RegVal)
  /-- `WR EDGE, v` -/
  | wrEdge (v : RegVal)
  /-- `WR TB_TICK, v` -/
  | wrTbTick (v : RegVal)
  /-- `WR TB_ELAPSED, v` -/
  | wrTbElapsed (v : RegVal)
  /-- `WR 15, v` -/
  | wr15 (v : RegVal)
  /-- EV_CONV: conversion complete, with its result -/
  | conv (raw : Raw)
  /-- EV_TB: time-base tick -/
  | tb
  /-- RESET -/
  | reset
  deriving DecidableEq, Repr, Inhabited

end Sys2Proof
end

