-- ==== Sys2Proof/Config.lean ====
section
/-! DEFINITION. What the spec fixes as constants (R6, R8), the OPEN parameters it leaves to each
unit (R7), and the free choices it leaves to the run (I6 of spec/93). An OPEN parameter and a free
choice have NO body: nothing can prove a value of one. -/

namespace Sys2Proof

/-- `AVG_SHIFT` = 2, divisor 4 (R6, R8). -/
def Config.avgShift : Nat := 2

/-- `DEADBAND` = 2 (R6, R8). -/
def Config.deadband : Int := 2

/-- OPEN: `SW_THRESHOLD`, a 10-bit unsigned value (R7, D11, I4). -/
opaque Config.swThreshold : Raw

/-- OPEN: `AVG_RESET[w]`, 0 to 255 (R7, R31, D12, I2). -/
opaque Config.avgReset : Wheel → BitVec 8

/-- OPEN: `SIGN_RESET[w]`, +1 or -1 (R7, R32, D12, I3). -/
opaque Config.signReset : Wheel → Sign

/-- OPEN: `MUXSEL[c]`, the multiplexer selector of a channel (R23, D19, I5). No rule of the
transition function reads it. -/
opaque Config.muxSel : Channel → Nat

/-- OPEN: `REFSEL[c]`, the reference configuration of a channel (R23, D19, I5). No rule of the
transition function reads it. -/
opaque Config.refSel : Channel → Nat

/-- OPEN: `ACS_BASE`, where the register space sits in the host's address map (R61, D1, I10). No
rule reads it. -/
opaque Config.acsBase : Nat

/-- The free choice of which agent steps next and with which transaction, its write data and its raw
conversion result among it (R13, R66, R112, R185; I1 and I6). The argument is the index of the step. -/
opaque Config.freeTxn : Nat → Instr

end Sys2Proof
end

