-- ==== Sys2Proof/WellFormed.lean ====
section
/-! DEFINITION. What a well-formed transaction is: each transaction belongs to one agent (R84,
"issued by"), and only that agent may issue it (R85). Operand ranges need no check here: the
operands' types are exactly their fields' widths (R83). The assembler's own checks on written
operands (R94) stand in Machine/HostPrograms.lean. -/

namespace Sys2Proof

/-- The agent that issues a transaction (R84). -/
def Instr.issuer : Instr → Agent
  | .rdCtrl => .host
  | .rdStatus => .host
  | .rdSample0 => .host
  | .rdSample1 => .host
  | .rdSample2 => .host
  | .rdSample3 => .host
  | .rdSample4 => .host
  | .rdSample5 => .host
  | .rdEncL => .host
  | .rdEncR => .host
  | .rdAvgL => .host
  | .rdAvgR => .host
  | .rdEdge => .host
  | .rdTbTick => .host
  | .rdTbElapsed => .host
  | .rd15 => .host
  | .wrCtrl _ => .host
  | .wrStatus _ => .host
  | .wrSample0 _ => .host
  | .wrSample1 _ => .host
  | .wrSample2 _ => .host
  | .wrSample3 _ => .host
  | .wrSample4 _ => .host
  | .wrSample5 _ => .host
  | .wrEncL _ => .host
  | .wrEncR _ => .host
  | .wrAvgL _ => .host
  | .wrAvgR _ => .host
  | .wrEdge _ => .host
  | .wrTbTick _ => .host
  | .wrTbElapsed _ => .host
  | .wr15 _ => .host
  | .conv _ => .converter
  | .tb => .timeBase
  | .reset => .host

/-- A transaction is well formed for the agent that issues it exactly when it is that agent's own
(R85). -/
def Instr.wellFormed (a : Agent) (i : Instr) : Bool := i.issuer == a

end Sys2Proof
end

