-- ==== Sys2Proof/Decode.lean ====
section
/-! DEFINITION. The decoder of R86, total on every word and every agent, and after it the encoder
of R94, both written from the formats of R82; the byte order of R63; and the opcode table's match and
mask rows as data, against which the decoder is checked (R87). -/

namespace Sys2Proof

/-- Why the decoder gives a word no meaning (R85, R93). A refusal is not a fault (R181). -/
inductive DecodeRefusal where
  /-- the word spells no transaction (R93) -/
  | reservedEncoding
  /-- the word's transaction belongs to another agent (R85) -/
  | wrongAgent
  /-- the bytes are not exactly one 32-bit word (R88) -/
  | notOneWord
  deriving DecidableEq, Repr

/-- What the decoder returns: a transaction or a refusal (R86). -/
inductive Decoded where
  | txn (i : Instr)
  | refuse (r : DecodeRefusal)
  deriving DecidableEq, Repr

/-- OP, word[31:28] (R81). -/
def opField (w : TxnWord) : BitVec 4 := w.extractLsb' 28 4

/-- REG, word[27:24] (R81, R83). -/
def regField (w : TxnWord) : RegNum := w.extractLsb' 24 4

/-- RSV, word[23:16] (R81). -/
def rsvField (w : TxnWord) : BitVec 8 := w.extractLsb' 16 8

/-- DATA, word[15:0] (R81, R83). -/
def dataField (w : TxnWord) : RegVal := w.extractLsb' 0 16

/-- The raw conversion result in DATA, bits 9:0 (R83). -/
def rawField (d : RegVal) : Raw := d.extractLsb' 0 10

/-- DATA[15:10], which EV_CONV must have zero (R82). -/
def rawHighField (d : RegVal) : BitVec 6 := d.extractLsb' 10 6

/-- RD of register number `r`: one transaction per register (R84). -/
def rdOf (r : RegNum) : Instr :=
  match r.toNat with
  | 0x0 => .rdCtrl
  | 0x1 => .rdStatus
  | 0x2 => .rdSample0
  | 0x3 => .rdSample1
  | 0x4 => .rdSample2
  | 0x5 => .rdSample3
  | 0x6 => .rdSample4
  | 0x7 => .rdSample5
  | 0x8 => .rdEncL
  | 0x9 => .rdEncR
  | 0xA => .rdAvgL
  | 0xB => .rdAvgR
  | 0xC => .rdEdge
  | 0xD => .rdTbTick
  | 0xE => .rdTbElapsed
  | _ => .rd15

/-- WR of register number `r` with data `v`: one transaction per register (R84). -/
def wrOf (r : RegNum) (v : RegVal) : Instr :=
  match r.toNat with
  | 0x0 => .wrCtrl v
  | 0x1 => .wrStatus v
  | 0x2 => .wrSample0 v
  | 0x3 => .wrSample1 v
  | 0x4 => .wrSample2 v
  | 0x5 => .wrSample3 v
  | 0x6 => .wrSample4 v
  | 0x7 => .wrSample5 v
  | 0x8 => .wrEncL v
  | 0x9 => .wrEncR v
  | 0xA => .wrAvgL v
  | 0xB => .wrAvgR v
  | 0xC => .wrEdge v
  | 0xD => .wrTbTick v
  | 0xE => .wrTbElapsed v
  | _ => .wr15 v

/-- The decoder before its agent check: the transaction a word spells, `none` where the encoding is
reserved (R86, R93). -/
def decodeWord (w : TxnWord) : Option Instr :=
  if rsvField w ≠ 0 then none
  else
    match (opField w).toNat with
    | 0x1 => if dataField w ≠ 0 then none else some (rdOf (regField w))
    | 0x2 => some (wrOf (regField w) (dataField w))
    | 0x8 =>
      if regField w ≠ 0 ∨ rawHighField (dataField w) ≠ 0 then none
      else some (.conv (rawField (dataField w)))
    | 0x9 => if regField w ≠ 0 ∨ dataField w ≠ 0 then none else some .tb
    | 0xF => if regField w ≠ 0 ∨ dataField w ≠ 0 then none else some .reset
    | _ => none

/-- `decode` of R86: ReservedEncoding first, then the agent check. -/
def decode (w : TxnWord) (a : Agent) : Decoded :=
  match decodeWord w with
  | none => .refuse .reservedEncoding
  | some i => if i.wellFormed a then .txn i else .refuse .wrongAgent

/-- Four bytes, lowest address first, as one little-endian word (R63); any other count is not one
word (R88). -/
def wordOfBytes : List Byte → Option TxnWord
  | [b0, b1, b2, b3] => some (b3 ++ b2 ++ b1 ++ b0)
  | _ => none

/-- A word written as bytes, little-endian (R63). -/
def bytesOfWord (w : TxnWord) : List Byte :=
  [w.extractLsb' 0 8, w.extractLsb' 8 8, w.extractLsb' 16 8, w.extractLsb' 24 8]

/-- The decoder on bytes: total on any list of bytes (R63, R86, R88). -/
def decodeBytes (bs : List Byte) (a : Agent) : Decoded :=
  match wordOfBytes bs with
  | none => .refuse .notOneWord
  | some w => decode w a

/-! ### The encoder -/

/-- Format `F_R`: RD of register `r` (R82). -/
def encodeRd (r : RegNum) : TxnWord := 0x1#4 ++ r ++ 0#8 ++ 0#16

/-- Format `F_W`: WR of register `r` with data `v` (R82). -/
def encodeWr (r : RegNum) (v : RegVal) : TxnWord := 0x2#4 ++ r ++ 0#8 ++ v

/-- Format `F_C`: EV_CONV with its raw result (R82). -/
def encodeConv (raw : Raw) : TxnWord := 0x8#4 ++ 0#4 ++ 0#8 ++ 0#6 ++ raw

/-- Format `F_N`: a transaction with no operand (R82). -/
def encodePlain (op : BitVec 4) : TxnWord := op ++ 0#4 ++ 0#8 ++ 0#16

/-- The word of a transaction (R82, R94). -/
def encode : Instr → TxnWord
  | .rdCtrl => encodeRd 0x0
  | .rdStatus => encodeRd 0x1
  | .rdSample0 => encodeRd 0x2
  | .rdSample1 => encodeRd 0x3
  | .rdSample2 => encodeRd 0x4
  | .rdSample3 => encodeRd 0x5
  | .rdSample4 => encodeRd 0x6
  | .rdSample5 => encodeRd 0x7
  | .rdEncL => encodeRd 0x8
  | .rdEncR => encodeRd 0x9
  | .rdAvgL => encodeRd 0xA
  | .rdAvgR => encodeRd 0xB
  | .rdEdge => encodeRd 0xC
  | .rdTbTick => encodeRd 0xD
  | .rdTbElapsed => encodeRd 0xE
  | .rd15 => encodeRd 0xF
  | .wrCtrl v => encodeWr 0x0 v
  | .wrStatus v => encodeWr 0x1 v
  | .wrSample0 v => encodeWr 0x2 v
  | .wrSample1 v => encodeWr 0x3 v
  | .wrSample2 v => encodeWr 0x4 v
  | .wrSample3 v => encodeWr 0x5 v
  | .wrSample4 v => encodeWr 0x6 v
  | .wrSample5 v => encodeWr 0x7 v
  | .wrEncL v => encodeWr 0x8 v
  | .wrEncR v => encodeWr 0x9 v
  | .wrAvgL v => encodeWr 0xA v
  | .wrAvgR v => encodeWr 0xB v
  | .wrEdge v => encodeWr 0xC v
  | .wrTbTick v => encodeWr 0xD v
  | .wrTbElapsed v => encodeWr 0xE v
  | .wr15 v => encodeWr 0xF v
  | .conv raw => encodeConv raw
  | .tb => encodePlain 0x9
  | .reset => encodePlain 0xF

/-! ### The opcode table's rows -/

/-- One row of spec/opcode_table.json: a word belongs to the row when its bits under `mask` are
those of `pattern`. -/
structure TableRow where
  pattern : TxnWord
  mask : TxnWord
  deriving DecidableEq, Repr

/-- The word belongs to the row. -/
def TableRow.matches (row : TableRow) (w : TxnWord) : Bool := w &&& row.mask == row.pattern

/-- The row of the opcode table a transaction stands for (R87). -/
def Instr.tableRow : Instr → TableRow
  | .rdCtrl => ⟨0x10000000, 0xFFFFFFFF⟩
  | .rdStatus => ⟨0x11000000, 0xFFFFFFFF⟩
  | .rdSample0 => ⟨0x12000000, 0xFFFFFFFF⟩
  | .rdSample1 => ⟨0x13000000, 0xFFFFFFFF⟩
  | .rdSample2 => ⟨0x14000000, 0xFFFFFFFF⟩
  | .rdSample3 => ⟨0x15000000, 0xFFFFFFFF⟩
  | .rdSample4 => ⟨0x16000000, 0xFFFFFFFF⟩
  | .rdSample5 => ⟨0x17000000, 0xFFFFFFFF⟩
  | .rdEncL => ⟨0x18000000, 0xFFFFFFFF⟩
  | .rdEncR => ⟨0x19000000, 0xFFFFFFFF⟩
  | .rdAvgL => ⟨0x1A000000, 0xFFFFFFFF⟩
  | .rdAvgR => ⟨0x1B000000, 0xFFFFFFFF⟩
  | .rdEdge => ⟨0x1C000000, 0xFFFFFFFF⟩
  | .rdTbTick => ⟨0x1D000000, 0xFFFFFFFF⟩
  | .rdTbElapsed => ⟨0x1E000000, 0xFFFFFFFF⟩
  | .rd15 => ⟨0x1F000000, 0xFFFFFFFF⟩
  | .wrCtrl _ => ⟨0x20000000, 0xFFFF0000⟩
  | .wrStatus _ => ⟨0x21000000, 0xFFFF0000⟩
  | .wrSample0 _ => ⟨0x22000000, 0xFFFF0000⟩
  | .wrSample1 _ => ⟨0x23000000, 0xFFFF0000⟩
  | .wrSample2 _ => ⟨0x24000000, 0xFFFF0000⟩
  | .wrSample3 _ => ⟨0x25000000, 0xFFFF0000⟩
  | .wrSample4 _ => ⟨0x26000000, 0xFFFF0000⟩
  | .wrSample5 _ => ⟨0x27000000, 0xFFFF0000⟩
  | .wrEncL _ => ⟨0x28000000, 0xFFFF0000⟩
  | .wrEncR _ => ⟨0x29000000, 0xFFFF0000⟩
  | .wrAvgL _ => ⟨0x2A000000, 0xFFFF0000⟩
  | .wrAvgR _ => ⟨0x2B000000, 0xFFFF0000⟩
  | .wrEdge _ => ⟨0x2C000000, 0xFFFF0000⟩
  | .wrTbTick _ => ⟨0x2D000000, 0xFFFF0000⟩
  | .wrTbElapsed _ => ⟨0x2E000000, 0xFFFF0000⟩
  | .wr15 _ => ⟨0x2F000000, 0xFFFF0000⟩
  | .conv _ => ⟨0x80000000, 0xFFFFFC00⟩
  | .tb => ⟨0x90000000, 0xFFFFFFFF⟩
  | .reset => ⟨0xF0000000, 0xFFFFFFFF⟩

/-- The sixteen RD rows of the opcode table. -/
def rdRows : List TableRow :=
  [Instr.rdCtrl, .rdStatus, .rdSample0, .rdSample1, .rdSample2, .rdSample3, .rdSample4, .rdSample5,
    .rdEncL, .rdEncR, .rdAvgL, .rdAvgR, .rdEdge, .rdTbTick, .rdTbElapsed, .rd15].map Instr.tableRow

/-- The sixteen WR rows of the opcode table; a row does not depend on the write data. -/
def wrRows : List TableRow :=
  [Instr.wrCtrl 0, .wrStatus 0, .wrSample0 0, .wrSample1 0, .wrSample2 0, .wrSample3 0,
    .wrSample4 0, .wrSample5 0, .wrEncL 0, .wrEncR 0, .wrAvgL 0, .wrAvgR 0, .wrEdge 0,
    .wrTbTick 0, .wrTbElapsed 0, .wr15 0].map Instr.tableRow

/-- All 35 rows of the opcode table, in its order (R87). -/
def opcodeTable : List TableRow :=
  rdRows ++ wrRows ++ [Instr.conv 0, .tb, .reset].map Instr.tableRow

/-! ### The host's probe -/

/-- The word whose low `nbits` bits are those of `w` and whose other bits are zero. -/
def tableWord (nbits w : Nat) : TxnWord := BitVec.ofNat 32 (w % 2 ^ nbits)

/-- The agent whose transactions have this word's OP (R84); the host for a reserved OP, which the
decoder then refuses. -/
def wordIssuer (w : TxnWord) : Agent :=
  match (opField w).toNat with
  | 0x8 => .converter
  | 0x9 => .timeBase
  | _ => .host

/-- The transaction the decoder reads from an opcode-table word of `nbits` bits, laid out as
little-endian bytes (R63) and issued by the agent its OP belongs to (R84). -/
def decodeTableWord (nbits w : Nat) : Option Instr :=
  match decodeBytes (bytesOfWord (tableWord nbits w)) (wordIssuer (tableWord nbits w)) with
  | .txn i => some i
  | .refuse _ => none

end Sys2Proof
end

