-- ==== Sys2Proof/Machine/State.lean ====
section
/-! DEFINITION. The state of the ACS as plain data: every row of the state inventory R21, the
conversion in flight (R24), the model's fault record (R37), the run's history of event outputs
(R184), what the host's read returned (R150), the words the agents offer (R13, R66) and the OPEN
parameters the model takes as an argument (R7). The ACS has no memory (R60, R72), so State holds no
memory. -/

namespace Sys2Proof.Machine

/-- The six sample slots, 10 bits each (R21, R29). -/
structure Samples where
  wheelL : Raw
  wheelR : Raw
  switches : Raw
  irL : Raw
  irR : Raw
  battery : Raw
  deriving DecidableEq, Repr

/-- The state kept per wheel: `AVG[w]`, `SIGN[w]` and `ENC[w]` (R21). `enc` is the counter's 16-bit
two's-complement pattern (R30). -/
structure WheelState where
  avg : BitVec 8
  sign : Sign
  enc : BitVec 16
  deriving DecidableEq, Repr

/-- The OPEN parameters the transition function reads (R7, D11, D12). No transaction changes them. -/
structure Params where
  swThreshold : Raw
  avgResetL : BitVec 8
  avgResetR : BitVec 8
  signResetL : Sign
  signResetR : Sign
  deriving DecidableEq, Repr

/-- The direction of an unmapped access, its register number and, for a write, its data: what R181
records. -/
inductive Access where
  | read (r : RegNum)
  | write (r : RegNum) (v : RegVal)
  deriving DecidableEq, Repr

/-- The faults of R181. A fault is RECORDED in the state and the run goes on (R37, R187), so no step
of this model ends in `Host.Outcome.fault`. -/
inductive Fault where
  /-- Code 1. Raised by RD and WR of r = 0xF (R161). Safe: the access gets no value and no effect,
  and the run is marked faulted for good. -/
  | unmappedRegister (access : Access)
  deriving DecidableEq, Repr

/-- Why a step is refused: no transaction happens, and it is no fault (R181). -/
inductive Refusal where
  /-- An instruction with no meaning yet; raised by an arm of `exec` only. Safe: nothing can be
  proved of what it does. -/
  | notModelled (mnemonic : String)
  /-- The word spells no transaction (R93). Raised by `step`. Safe: the spec refuses it too. -/
  | reservedEncoding (word : TxnWord)
  /-- The word's transaction belongs to another agent (R85). Raised by `step`. Safe: the spec
  refuses it too. -/
  | wrongAgent (word : TxnWord) (agent : Agent)
  /-- EV_CONV offered while RUN = 0, when the converter has no step (R110, I13). Raised by the
  meaning of CONV. Safe: the spec refuses it too. -/
  | converterStopped (raw : Raw)
  deriving DecidableEq, Repr

/-- One pulse of an event output, with the index of the step that gave it (R184). -/
structure Pulse where
  out : EventOut
  step : Nat
  deriving DecidableEq, Repr

/-- A word an agent offers as its step; the decoder is given both (R85). -/
structure Offer where
  agent : Agent
  word : TxnWord
  deriving DecidableEq, Repr

/-- The state of the machine. -/
structure State where
  /-- `CUR`, the scheduler's state (R22) -/
  cur : Channel
  /-- `AUTOENC`, CTRL bit 0 (R27) -/
  autoenc : Bool
  /-- `RUN`, CTRL bit 1 (R27) -/
  run : Bool
  /-- the channel of the conversion in flight, `none` when there is none (R24) -/
  inFlight : Option Channel
  /-- `SWP`, STATUS bit 0 (R28) -/
  swp : Bool
  /-- `SAMPLE[0]` to `SAMPLE[5]` (R29) -/
  samples : Samples
  /-- `AVG[L]`, `SIGN[L]`, `ENC[L]` (R30, R31, R32) -/
  wheelL : WheelState
  /-- `AVG[R]`, `SIGN[R]`, `ENC[R]` (R30, R31, R32) -/
  wheelR : WheelState
  /-- `TB_TICK` (R33) -/
  tbTick : BitVec 8
  /-- `TB_ELAPSED` (R34) -/
  tbElapsed : BitVec 16
  /-- `faulted`, never cleared (R37) -/
  faulted : Bool
  /-- the fault reasons raised, oldest first (R37) -/
  faults : List Fault
  /-- the pulses of TB_IRQ and CONV_IRQ in the run's history, oldest first (R184) -/
  pulses : List Pulse
  /-- the value the step just taken returned to the host, `none` when it returned none (R150, R161) -/
  reply : Option RegVal
  /-- how many steps have begun; the running step has this index, the first step index 1 (R184) -/
  stepIndex : Nat
  /-- the words the agents offer next, first to step first (R66) -/
  schedule : List Offer
  /-- the OPEN parameters (R7) -/
  params : Params
  deriving DecidableEq, Repr

/-- The machine right after power-on (R39, R200): no run has begun, and nothing is offered yet. The
averages and signs hold the OPEN parameters `AVG_RESET[w]` and `SIGN_RESET[w]`. -/
def State.reset : State where
  cur := .wheelL
  autoenc := false
  run := false
  inFlight := none
  swp := false
  samples := ⟨0, 0, 0, 0, 0, 0⟩
  wheelL := ⟨Config.avgReset .left, Config.signReset .left, 0⟩
  wheelR := ⟨Config.avgReset .right, Config.signReset .right, 0⟩
  tbTick := 0
  tbElapsed := 0
  faulted := false
  faults := []
  pulses := []
  reply := none
  stepIndex := 0
  schedule := []
  params :=
    { swThreshold := Config.swThreshold
      avgResetL := Config.avgReset .left
      avgResetR := Config.avgReset .right
      signResetL := Config.signReset .left
      signResetR := Config.signReset .right }

end Sys2Proof.Machine
end

