-- ==== Sys2Proof/Machine/Ops.lean ====
section
/-! DEFINITION. The named operations the meanings are written with: the arithmetic of R9, the
channel rotation of R22 and R23, the accessors of the per-channel and per-wheel state (R10), the
conversion in flight (R24, R111), raising a fault (R37, R181, R187), pulsing an event output (R184),
returning a read value (R150), the reset values of R39, and taking the next offered word (R66).
Nothing returns from a fault: the ACS has no trap entry and no return (R187, R188). -/

namespace Sys2Proof.Machine

/-! ### Arithmetic (R9) -/

/-- `asr(v, n)`: floor of v / 2^n, rounding toward minus infinity (R9, D6). -/
def asr (v : Int) (n : Nat) : Int := v / 2 ^ n

/-- `wrap_N(v)`, as an N-bit pattern (R9). -/
def wrap (n : Nat) (v : Int) : BitVec n := BitVec.ofInt n v

/-! ### Channels and wheels -/

/-- The channel's number, 0 to 5, as CUR holds it (R22, R23). -/
def channelCode : Channel → BitVec 3
  | .wheelL => 0
  | .wheelR => 1
  | .switches => 2
  | .irL => 3
  | .irR => 4
  | .battery => 5

/-- `next(c) = (c + 1) mod 6` (R22, R116). -/
def nextChannel : Channel → Channel
  | .wheelL => .wheelR
  | .wheelR => .switches
  | .switches => .irL
  | .irL => .irR
  | .irR => .battery
  | .battery => .wheelL

/-- The wheel of a wheel channel (R23, R115). -/
def wheelOf : Channel → Option Wheel
  | .wheelL => some .left
  | .wheelR => some .right
  | .switches => none
  | .irL => none
  | .irR => none
  | .battery => none

/-- +1 or -1 as an integer (R133). -/
def signInt : Sign → Int
  | .plus => 1
  | .minus => -1

/-- `SIGN[w] <- -SIGN[w]` (R134). -/
def flipSign : Sign → Sign
  | .plus => .minus
  | .minus => .plus

/-- The slot of a channel (R29). -/
def Samples.get (x : Samples) : Channel → Raw
  | .wheelL => x.wheelL
  | .wheelR => x.wheelR
  | .switches => x.switches
  | .irL => x.irL
  | .irR => x.irR
  | .battery => x.battery

/-- One slot overwritten, no other touched (R114). -/
def Samples.put (x : Samples) (c : Channel) (raw : Raw) : Samples :=
  match c with
  | .wheelL => { x with wheelL := raw }
  | .wheelR => { x with wheelR := raw }
  | .switches => { x with switches := raw }
  | .irL => { x with irL := raw }
  | .irR => { x with irR := raw }
  | .battery => { x with battery := raw }

/-- `SAMPLE[c]` (R10). -/
def State.sample (s : State) (c : Channel) : Raw := s.samples.get c

/-- `SAMPLE[c] <- raw` (R114). -/
def State.setSample (s : State) (c : Channel) (raw : Raw) : State :=
  { s with samples := s.samples.put c raw }

/-- `AVG[w]`, `SIGN[w]`, `ENC[w]` (R10). -/
def State.wheel (s : State) : Wheel → WheelState
  | .left => s.wheelL
  | .right => s.wheelR

/-- One wheel's state replaced, the other wheel's untouched. -/
def State.setWheel (s : State) (w : Wheel) (x : WheelState) : State :=
  match w with
  | .left => { s with wheelL := x }
  | .right => { s with wheelR := x }

/-- `ENC[w] <- v`; `AVG[w]` and `SIGN[w]` are neither read nor changed (R158). -/
def State.setEnc (s : State) (w : Wheel) (v : RegVal) : State :=
  s.setWheel w { s.wheel w with enc := v }

/-! ### The converter (R24, R111) -/

/-- Start the conversion of channel `c`: it becomes the one in flight (R24, R111). -/
def State.startConversion (s : State) (c : Channel) : State := { s with inFlight := some c }

/-- The conversion in flight, if any, is abandoned: no EV_CONV will deliver it (R156, R160). -/
def State.abandonConversion (s : State) : State := { s with inFlight := none }

/-- The selector and reference configuration the converter was given for the conversion in flight
(R23, R111). No rule of the transition function reads it. -/
def State.converterInput (s : State) : Option (Nat × Nat) :=
  s.inFlight.map fun c => (Config.muxSel c, Config.refSel c)

/-- A transaction its agent can take now: EV_CONV only while RUN = 1 (R110), EV_TB (R100) and every
host transaction (R189) always. -/
def State.enabled (s : State) : Instr → Bool
  | .conv _ => s.run
  | _ => true

/-! ### Faults, event outputs and the value a read returns -/

/-- `raise Fault(reason)`: set `faulted` and append the reason (R37). It saves nothing else, changes
no mode and goes to no handler (R187). -/
def State.raiseFault (s : State) (reason : Fault) : State :=
  { s with faulted := true, faults := s.faults ++ [reason] }

/-- The fault's code (R181). -/
def faultCode : Fault → Nat
  | .unmappedRegister _ => 1

/-- `pulse NAME`: an event in the run's history with the step's index; nothing is latched (R184). -/
def State.pulse (s : State) (out : EventOut) : State :=
  { s with pulses := s.pulses ++ [⟨out, s.stepIndex⟩] }

/-- A RD returns `v` to the host (R150). -/
def State.returnValue (s : State) (v : RegVal) : State := { s with reply := some v }

/-- A faulting RD returns no value (R161). -/
def State.returnNothing (s : State) : State := { s with reply := none }

/-! ### Reset (R39, R160) -/

/-- `AVG_RESET[w]`, `SIGN_RESET[w]` and 0 for one wheel (R39). -/
def Params.wheelReset (p : Params) : Wheel → WheelState
  | .left => ⟨p.avgResetL, p.signResetL, 0⟩
  | .right => ⟨p.avgResetR, p.signResetR, 0⟩

/-- Every state of R39 takes its reset value; the fault record (R37), the run's history, the offered
words and the parameters stay. -/
def State.resetRegs (s : State) : State :=
  { s.abandonConversion with
    cur := .wheelL
    autoenc := false
    run := false
    swp := false
    samples := ⟨0, 0, 0, 0, 0, 0⟩
    wheelL := s.params.wheelReset .left
    wheelR := s.params.wheelReset .right
    tbTick := 0
    tbElapsed := 0 }

/-! ### Taking the next offered word (R13, R66) -/

/-- The transaction taken when no word is offered: a free choice among the enabled agents'
transactions (I6). A drawn EV_CONV while RUN = 0 is no transaction of any enabled agent (R110); the
time base, always enabled (R100), then steps, so every drawn choice is an enabled one and every
enabled one can be drawn. -/
def State.freeTxn (s : State) : Instr :=
  if s.enabled (Config.freeTxn s.stepIndex) then Config.freeTxn s.stepIndex else .tb

/-- The word that steps next: the first of the schedule, else the free choice (I6). -/
def State.offered (s : State) : Offer :=
  match s.schedule with
  | o :: _ => o
  | [] => ⟨s.freeTxn.issuer, encode s.freeTxn⟩

/-- The state in which the offered word runs: the word is taken off the schedule, the step has its
index, and nothing has been returned to the host yet. -/
def State.beginStep (s : State) : State :=
  { s with schedule := s.schedule.tail, stepIndex := s.stepIndex + 1, reply := none }

/-- The refusal a step ends in when the decoder refuses the offered word (R85, R93). -/
def refusalOf (o : Offer) : DecodeRefusal → Refusal
  | .reservedEncoding => .reservedEncoding o.word
  | .wrongAgent => .wrongAgent o.word o.agent
  | .notOneWord => .reservedEncoding o.word

/-- Place a word as the next to step, issued by the agent its OP belongs to (R84). A converter's word
can be offered only while a conversion is in flight (R24, R110), so for one the converter is running
with the conversion of CUR in flight. -/
def State.placeWord (s : State) (w : TxnWord) : State :=
  match wordIssuer w with
  | .converter =>
    { s with schedule := ⟨.converter, w⟩ :: s.schedule, run := true, inFlight := some s.cur }
  | a => { s with schedule := ⟨a, w⟩ :: s.schedule }

end Sys2Proof.Machine
end

