-- ==== Sys2Proof/Machine/Operands.lean ====
section
/-! DEFINITION. The register map of R25: the fifteen mapped registers, their numbers, names and access
rights, what a read of each returns (`view`, R150, with reserved bits 0, R26), and the operand
fields of the write data and of the raw result (R27, R28, R83, R131). -/

namespace Sys2Proof.Machine

/-- The mapped registers of R25; r = 0xF is no register. -/
inductive Reg where
  | ctrl
  | status
  | sample (c : Channel)
  | enc (w : Wheel)
  | avg (w : Wheel)
  | edge
  | tbTick
  | tbElapsed
  deriving DecidableEq, Repr

/-- A register's access right (R25). -/
inductive AccessRight where
  | readWrite
  | writeOneToClear
  | readOnly
  deriving DecidableEq, Repr

/-- The register number (R25); `SAMPLEc` is at 0x2 + c. -/
def regNumber : Reg → RegNum
  | .ctrl => 0x0
  | .status => 0x1
  | .sample c => 0x2 + (channelCode c).setWidth 4
  | .enc .left => 0x8
  | .enc .right => 0x9
  | .avg .left => 0xA
  | .avg .right => 0xB
  | .edge => 0xC
  | .tbTick => 0xD
  | .tbElapsed => 0xE

/-- The register with a number; `none` for the unmapped 0xF (R25). -/
def regOfNumber (r : RegNum) : Option Reg :=
  match r.toNat with
  | 0x0 => some .ctrl
  | 0x1 => some .status
  | 0x2 => some (.sample .wheelL)
  | 0x3 => some (.sample .wheelR)
  | 0x4 => some (.sample .switches)
  | 0x5 => some (.sample .irL)
  | 0x6 => some (.sample .irR)
  | 0x7 => some (.sample .battery)
  | 0x8 => some (.enc .left)
  | 0x9 => some (.enc .right)
  | 0xA => some (.avg .left)
  | 0xB => some (.avg .right)
  | 0xC => some .edge
  | 0xD => some .tbTick
  | 0xE => some .tbElapsed
  | _ => none

/-- The access column of R25. -/
def accessRight : Reg → AccessRight
  | .ctrl => .readWrite
  | .status => .writeOneToClear
  | .sample _ => .readOnly
  | .enc _ => .readWrite
  | .avg _ => .readOnly
  | .edge => .readOnly
  | .tbTick => .readOnly
  | .tbElapsed => .readOnly

/-- EDGE's bit for a sign: 1 for -1, else 0 (R32, R150). -/
def signBit : Sign → BitVec 1
  | .plus => 0
  | .minus => 1

/-- `view(r)` of R150: the 16 bits a read of the register returns. A bit no field names reads 0
(R26). -/
def view (s : State) : Reg → RegVal
  | .ctrl => (BitVec.ofBool s.run ++ BitVec.ofBool s.autoenc).setWidth 16
  | .status => (channelCode s.cur ++ BitVec.ofBool s.swp).setWidth 16
  | .sample c => (s.sample c).setWidth 16
  | .enc w => (s.wheel w).enc
  | .avg w => (s.wheel w).avg.setWidth 16
  | .edge => (signBit s.wheelR.sign ++ signBit s.wheelL.sign).setWidth 16
  | .tbTick => s.tbTick.setWidth 16
  | .tbElapsed => s.tbElapsed

/-! ### Operand fields -/

/-- CTRL.AUTOENC in the write data, v[0] (R27, R156). -/
def autoencBit (v : RegVal) : Bool := v.getLsbD 0

/-- CTRL.RUN in the write data, v[1] (R27, R156). -/
def runBit (v : RegVal) : Bool := v.getLsbD 1

/-- STATUS.SWP in the write data, v[0] (R28, R157). -/
def clearSwpBit (v : RegVal) : Bool := v.getLsbD 0

/-- `s`, the 8-bit-significant part of a raw sample, raw[9:2] (R131, D7). -/
def sampleMsb (raw : Raw) : BitVec 8 := raw.extractLsb' 2 8

end Sys2Proof.Machine
end

