-- ==== Sys2Proof/Machine/HostRead.lean ====
section
/-! DEFINITION. RD, the host's register read (R150), one meaning per register. A read has no side
effect (R65): it returns the register's view and changes nothing. RD of r = 0xF raises
UnmappedRegister and returns no value (R161). -/

namespace Sys2Proof.Machine

/-- `RD CTRL` (R150). -/
def execRdCtrl (s : State) : Host.Outcome State Fault Refusal :=
  .next (s.returnValue (view s .ctrl))

/-- `RD STATUS` (R150). -/
def execRdStatus (s : State) : Host.Outcome State Fault Refusal :=
  .next (s.returnValue (view s .status))

/-- `RD SAMPLE0` (R150). -/
def execRdSample0 (s : State) : Host.Outcome State Fault Refusal :=
  .next (s.returnValue (view s (.sample .wheelL)))

/-- `RD SAMPLE1` (R150). -/
def execRdSample1 (s : State) : Host.Outcome State Fault Refusal :=
  .next (s.returnValue (view s (.sample .wheelR)))

/-- `RD SAMPLE2` (R150). -/
def execRdSample2 (s : State) : Host.Outcome State Fault Refusal :=
  .next (s.returnValue (view s (.sample .switches)))

/-- `RD SAMPLE3` (R150). -/
def execRdSample3 (s : State) : Host.Outcome State Fault Refusal :=
  .next (s.returnValue (view s (.sample .irL)))

/-- `RD SAMPLE4` (R150). -/
def execRdSample4 (s : State) : Host.Outcome State Fault Refusal :=
  .next (s.returnValue (view s (.sample .irR)))

/-- `RD SAMPLE5` (R150). -/
def execRdSample5 (s : State) : Host.Outcome State Fault Refusal :=
  .next (s.returnValue (view s (.sample .battery)))

/-- `RD ENC_L` (R150). -/
def execRdEncL (s : State) : Host.Outcome State Fault Refusal :=
  .next (s.returnValue (view s (.enc .left)))

/-- `RD ENC_R` (R150). -/
def execRdEncR (s : State) : Host.Outcome State Fault Refusal :=
  .next (s.returnValue (view s (.enc .right)))

/-- `RD AVG_L` (R150). -/
def execRdAvgL (s : State) : Host.Outcome State Fault Refusal :=
  .next (s.returnValue (view s (.avg .left)))

/-- `RD AVG_R` (R150). -/
def execRdAvgR (s : State) : Host.Outcome State Fault Refusal :=
  .next (s.returnValue (view s (.avg .right)))

/-- `RD EDGE` (R150). -/
def execRdEdge (s : State) : Host.Outcome State Fault Refusal :=
  .next (s.returnValue (view s .edge))

/-- `RD TB_TICK` (R150). -/
def execRdTbTick (s : State) : Host.Outcome State Fault Refusal :=
  .next (s.returnValue (view s .tbTick))

/-- `RD TB_ELAPSED` (R150). -/
def execRdTbElapsed (s : State) : Host.Outcome State Fault Refusal :=
  .next (s.returnValue (view s .tbElapsed))

/-- `RD 15` (R161): Fault(UnmappedRegister(read, 15)); no value is returned and the run goes on. -/
def execRd15 (s : State) : Host.Outcome State Fault Refusal :=
  .next (s.returnNothing.raiseFault (.unmappedRegister (.read 0xF)))

end Sys2Proof.Machine
end

