-- ==== Sys2Proof/Machine/HostReset.lean ====
section
/-! DEFINITION. RESET (R160), whose effect power-on has too (R200). It pulses no event output. -/

namespace Sys2Proof.Machine

/-- RESET (R160): the conversion in flight is abandoned and every state of R39 takes its reset value;
`faulted` and the fault list stay (R37). -/
def execReset (s : State) : Host.Outcome State Fault Refusal := .next s.resetRegs

end Sys2Proof.Machine
end

