-- ==== Sys2Proof/Machine/Flags.lean ====
section
/-! DEFINITION. The flag computations of R35: the switch-pressed flag (R117, R157), the start and
stop conditions of RUN (R156), and the tick condition that flips the edge sign (R133, R134). -/

namespace Sys2Proof.Machine

/-- `SWP or (raw < SW_THRESHOLD)`: strict, unsigned, on all 10 bits; never clears (R117, D11). -/
def swpAfterSample (threshold raw : Raw) (swp : Bool) : Bool := swp || decide (raw < threshold)

/-- SWP after WR STATUS: v[0] = 1 clears it, v[0] = 0 leaves it (R157). -/
def swpAfterWrite (v : RegVal) (swp : Bool) : Bool := swp && !clearSwpBit v

/-- A write that sets RUN from 0 to 1 starts the rotation (R156). -/
def startsRun (old : Bool) (v : RegVal) : Bool := !old && runBit v

/-- A write that sets RUN from 1 to 0 stops the converter (R156). -/
def stopsRun (old : Bool) (v : RegVal) : Bool := old && !runBit v

/-- The tick condition `SIGN[w] * e > DEADBAND` on the deviation `e` from the updated average
(R133). -/
def tickFires (sign : Sign) (e : Int) : Bool := decide (signInt sign * e > Config.deadband)

end Sys2Proof.Machine
end

