-- ==== Sys2Proof/Machine/HostWrite.lean ====
section
/-! DEFINITION. WR, the host's register write (R155), one meaning per register: CTRL (R156), STATUS
(R157), ENC_L and ENC_R (R158), the read-only registers, whose write changes nothing and is no fault
(R26, R159), and r = 0xF, which raises UnmappedRegister (R161). -/

namespace Sys2Proof.Machine

/-- `wr_ctrl(v)` (R156): AUTOENC and RUN take v[0] and v[1]; a start begins the rotation at channel 0,
a stop abandons the conversion in flight and leaves CUR. -/
def State.writeCtrl (s : State) (v : RegVal) : State :=
  let s' := { s with autoenc := autoencBit v, run := runBit v }
  if startsRun s.run v then { s'.startConversion .wheelL with cur := .wheelL }
  else if stopsRun s.run v then s'.abandonConversion
  else s'

/-- `wr_status(v)` (R157): write 1 to bit 0 to clear SWP; CUR is read-only. -/
def State.writeStatus (s : State) (v : RegVal) : State := { s with swp := swpAfterWrite v s.swp }

/-- A write to a read-only register: no state changes (R26, R159). -/
def State.writeReadOnly (s : State) (_v : RegVal) : State := s

/-- `WR CTRL, v` (R156). -/
def execWrCtrl (v : RegVal) (s : State) : Host.Outcome State Fault Refusal :=
  .next (s.writeCtrl v)

/-- `WR STATUS, v` (R157). -/
def execWrStatus (v : RegVal) (s : State) : Host.Outcome State Fault Refusal :=
  .next (s.writeStatus v)

/-- `WR SAMPLE0, v` (R159). -/
def execWrSample0 (v : RegVal) (s : State) : Host.Outcome State Fault Refusal :=
  .next (s.writeReadOnly v)

/-- `WR SAMPLE1, v` (R159). -/
def execWrSample1 (v : RegVal) (s : State) : Host.Outcome State Fault Refusal :=
  .next (s.writeReadOnly v)

/-- `WR SAMPLE2, v` (R159). -/
def execWrSample2 (v : RegVal) (s : State) : Host.Outcome State Fault Refusal :=
  .next (s.writeReadOnly v)

/-- `WR SAMPLE3, v` (R159). -/
def execWrSample3 (v : RegVal) (s : State) : Host.Outcome State Fault Refusal :=
  .next (s.writeReadOnly v)

/-- `WR SAMPLE4, v` (R159). -/
def execWrSample4 (v : RegVal) (s : State) : Host.Outcome State Fault Refusal :=
  .next (s.writeReadOnly v)

/-- `WR SAMPLE5, v` (R159). -/
def execWrSample5 (v : RegVal) (s : State) : Host.Outcome State Fault Refusal :=
  .next (s.writeReadOnly v)

/-- `WR ENC_L, v` (R158). -/
def execWrEncL (v : RegVal) (s : State) : Host.Outcome State Fault Refusal :=
  .next (s.setEnc .left v)

/-- `WR ENC_R, v` (R158). -/
def execWrEncR (v : RegVal) (s : State) : Host.Outcome State Fault Refusal :=
  .next (s.setEnc .right v)

/-- `WR AVG_L, v` (R159). -/
def execWrAvgL (v : RegVal) (s : State) : Host.Outcome State Fault Refusal :=
  .next (s.writeReadOnly v)

/-- `WR AVG_R, v` (R159). -/
def execWrAvgR (v : RegVal) (s : State) : Host.Outcome State Fault Refusal :=
  .next (s.writeReadOnly v)

/-- `WR EDGE, v` (R159). -/
def execWrEdge (v : RegVal) (s : State) : Host.Outcome State Fault Refusal :=
  .next (s.writeReadOnly v)

/-- `WR TB_TICK, v` (R159). -/
def execWrTbTick (v : RegVal) (s : State) : Host.Outcome State Fault Refusal :=
  .next (s.writeReadOnly v)

/-- `WR TB_ELAPSED, v` (R159). -/
def execWrTbElapsed (v : RegVal) (s : State) : Host.Outcome State Fault Refusal :=
  .next (s.writeReadOnly v)

/-- `WR 15, v` (R161): Fault(UnmappedRegister(write, 15, v)); nothing is written and the run goes on. -/
def execWr15 (v : RegVal) (s : State) : Host.Outcome State Fault Refusal :=
  .next (s.raiseFault (.unmappedRegister (.write 0xF v)))

end Sys2Proof.Machine
end

