-- ==== Sys2Proof/Machine/EdgeDetector.lean ====
section
/-! DEFINITION. `edge_update` (R130, R133): the running-average filter, the hysteresis edge detector
and the tick accumulator of one wheel. It is a sub-step of EV_CONV, not a transaction. -/

namespace Sys2Proof.Machine

/-- `a' = a + asr(s - a, AVG_SHIFT)`, the average moved toward the sample `s`, on integers (R132,
R133). -/
def smooth (a s : Int) : Int := a + asr (s - a) Config.avgShift

/-- `edge_update(w, raw)` on the wheel's own state (R133): the average moves, the deviation is taken
from the average already moved, and a tick adds 1 modulo 2^16 to ENC (R135) and flips SIGN (R134). -/
def edgeUpdate (raw : Raw) (x : WheelState) : WheelState :=
  let s : Int := (sampleMsb raw).toNat
  let a' := smooth x.avg.toNat s
  if tickFires x.sign (s - a') then
    { avg := wrap 8 a', sign := flipSign x.sign, enc := wrap 16 (x.enc.toInt + 1) }
  else
    { x with avg := wrap 8 a' }

end Sys2Proof.Machine
end

