-- ==== Sys2Proof/Machine/Sampler.lean ====
section
/-! DEFINITION. EV_CONV, the completion of the conversion in flight (R113): store, edge detector,
switch test, advance, start of the next conversion, pulse, in that order and as one step (R68). -/

namespace Sys2Proof.Machine

/-- Step 3 (R115): the edge detector runs exactly when `c` is a wheel channel and AUTOENC = 1. -/
def State.detectEdge (s : State) (c : Channel) (raw : Raw) : State :=
  match wheelOf c with
  | some w => if s.autoenc then s.setWheel w (edgeUpdate raw (s.wheel w)) else s
  | none => s

/-- Step 4 (R117): the switch test, on the switches channel only and whatever AUTOENC is. -/
def State.testSwitch (s : State) (c : Channel) (raw : Raw) : State :=
  if c = .switches then { s with swp := swpAfterSample s.params.swThreshold raw s.swp } else s

/-- Step 5 (R116): CUR advances to `next(c)` and the conversion of the new CUR starts. -/
def State.advance (s : State) (c : Channel) : State :=
  { s.startConversion (nextChannel c) with cur := nextChannel c }

/-- The body of EV_CONV (R113). -/
def State.completeConversion (s : State) (raw : Raw) : State :=
  ((((s.setSample s.cur raw).detectEdge s.cur raw).testSwitch s.cur raw).advance s.cur).pulse
    .convIrq

/-- EV_CONV (R113): only while RUN = 1 (R110); otherwise the converter has no step (I13). -/
def execConv (raw : Raw) (s : State) : Host.Outcome State Fault Refusal :=
  if s.run then .next (s.completeConversion raw) else .refused (.converterStopped raw)

end Sys2Proof.Machine
end

