-- ==== Sys2Proof/Machine/TimeBase.lean ====
section
/-! DEFINITION. EV_TB, the time-base tick (R101). It does not depend on CTRL (R100) and cannot
fault. -/

namespace Sys2Proof.Machine

/-- TB_TICK counts modulo 2^8, and TB_ELAPSED counts its wraps modulo 2^16 (R101). -/
def State.tickTimeBase (s : State) : State :=
  let t := wrap 8 (s.tbTick.toNat + 1)
  { s with
    tbTick := t
    tbElapsed := if t = 0 then wrap 16 (s.tbElapsed.toNat + 1) else s.tbElapsed }

/-- EV_TB (R101): count, then pulse TB_IRQ (R103, R184). -/
def execTb (s : State) : Host.Outcome State Fault Refusal := .next (s.tickTimeBase.pulse .tbIrq)

end Sys2Proof.Machine
end

