-- ==== Sys2Proof/Machine/Dispatch.lean ====
section
/-! DEFINITION. One arm per transaction, each one direct call of its meaning. -/

namespace Sys2Proof.Machine

def exec (i : Instr) (s : State) : Host.Outcome State Fault Refusal :=
  match i with
  | .rdCtrl => Sys2Proof.Machine.execRdCtrl s
  | .rdStatus => Sys2Proof.Machine.execRdStatus s
  | .rdSample0 => Sys2Proof.Machine.execRdSample0 s
  | .rdSample1 => Sys2Proof.Machine.execRdSample1 s
  | .rdSample2 => Sys2Proof.Machine.execRdSample2 s
  | .rdSample3 => Sys2Proof.Machine.execRdSample3 s
  | .rdSample4 => Sys2Proof.Machine.execRdSample4 s
  | .rdSample5 => Sys2Proof.Machine.execRdSample5 s
  | .rdEncL => Sys2Proof.Machine.execRdEncL s
  | .rdEncR => Sys2Proof.Machine.execRdEncR s
  | .rdAvgL => Sys2Proof.Machine.execRdAvgL s
  | .rdAvgR => Sys2Proof.Machine.execRdAvgR s
  | .rdEdge => Sys2Proof.Machine.execRdEdge s
  | .rdTbTick => Sys2Proof.Machine.execRdTbTick s
  | .rdTbElapsed => Sys2Proof.Machine.execRdTbElapsed s
  | .rd15 => Sys2Proof.Machine.execRd15 s
  | .wrCtrl v => Sys2Proof.Machine.execWrCtrl v s
  | .wrStatus v => Sys2Proof.Machine.execWrStatus v s
  | .wrSample0 v => Sys2Proof.Machine.execWrSample0 v s
  | .wrSample1 v => Sys2Proof.Machine.execWrSample1 v s
  | .wrSample2 v => Sys2Proof.Machine.execWrSample2 v s
  | .wrSample3 v => Sys2Proof.Machine.execWrSample3 v s
  | .wrSample4 v => Sys2Proof.Machine.execWrSample4 v s
  | .wrSample5 v => Sys2Proof.Machine.execWrSample5 v s
  | .wrEncL v => Sys2Proof.Machine.execWrEncL v s
  | .wrEncR v => Sys2Proof.Machine.execWrEncR v s
  | .wrAvgL v => Sys2Proof.Machine.execWrAvgL v s
  | .wrAvgR v => Sys2Proof.Machine.execWrAvgR v s
  | .wrEdge v => Sys2Proof.Machine.execWrEdge v s
  | .wrTbTick v => Sys2Proof.Machine.execWrTbTick v s
  | .wrTbElapsed v => Sys2Proof.Machine.execWrTbElapsed v s
  | .wr15 v => Sys2Proof.Machine.execWr15 v s
  | .conv raw => Sys2Proof.Machine.execConv raw s
  | .tb => Sys2Proof.Machine.execTb s
  | .reset => Sys2Proof.Machine.execReset s

end Sys2Proof.Machine
end

