-- ==== Sys2Proof/Machine/Step.lean ====
section
/-! DEFINITION. One step of the machine: the offered word is decoded with its agent (R85, R86) and its
transaction runs as one indivisible step (R66). -/

namespace Sys2Proof.Machine

/-- One step (R66). A word the decoder refuses is no transaction and no step (R93). -/
def step (s : State) : Host.Outcome State Fault Refusal :=
  match decode s.offered.word s.offered.agent with
  | .txn i => exec i s.beginStep
  | .refuse r => .refused (refusalOf s.offered r)

/-- `s` with the opcode-table word placed as the next to step. -/
def State.withFetchWord (s : State) (nbits w : Nat) : State := s.placeWord (tableWord nbits w)

end Sys2Proof.Machine
end

