-- ==== Sys2Proof/Machine/Runs.lean ====
section
/-! DEFINITION. Runs of transactions: a finite schedule taken in its order (R66), and the marks the
rules about runs use (a start write, R156; what lies between two starts, R118). -/

namespace Sys2Proof.Machine

/-- The transactions of a schedule taken one after the other, stopping at the first that is refused
(R66). -/
def execAll : List Instr → State → Host.Outcome State Fault Refusal
  | [], s => .next s
  | i :: is, s =>
    match exec i s with
    | .next t => execAll is t
    | .fault f => .fault f
    | .refused r => .refused r

/-- The transaction is a start write in this state: it sets RUN from 0 to 1 (R156). -/
def isStart (s : State) : Instr → Bool
  | .wrCtrl v => startsRun s.run v
  | _ => false

/-- No RESET and no start write happens while the schedule is taken from `s`, and no step is refused:
the "in between" of R118 and R202. -/
def noRestart : List Instr → State → Bool
  | [], _ => true
  | i :: is, s =>
    match exec i s with
    | .next t => i != .reset && !isStart s i && noRestart is t
    | .fault _ => false
    | .refused _ => false

/-- The results the EV_CONV steps of a schedule deliver, in order (R112). -/
def convResults : List Instr → List Raw
  | [] => []
  | .conv raw :: is => raw :: convResults is
  | _ :: is => convResults is

/-- The channel reached from `c` by `n` advances (R116). -/
def advanceBy : Nat → Channel → Channel
  | 0, c => c
  | n + 1, c => advanceBy n (nextChannel c)

/-- A wheel's state after its samples (as raw results) have gone through the edge detector in order
(R133). -/
def filterRun : List Raw → WheelState → WheelState
  | [], x => x
  | raw :: raws, x => filterRun raws (edgeUpdate raw x)

/-- Whether the edge detector registers a tick on this sample: it flips the sign exactly then
(R134). -/
def ticksOn (raw : Raw) (x : WheelState) : Bool := (edgeUpdate raw x).sign != x.sign

/-- How many ticks a sequence of samples gives (R137, R138). -/
def tickCount : List Raw → WheelState → Nat
  | [], _ => 0
  | raw :: raws, x => (if ticksOn raw x then 1 else 0) + tickCount raws (edgeUpdate raw x)

/-- TB_ELAPSED and TB_TICK as one count (R102). -/
def timeTotal (s : State) : Nat := s.tbElapsed.toNat * 256 + s.tbTick.toNat

end Sys2Proof.Machine
end

