-- ==== Sys2Proof/Machine/HostPrograms.lean ====
section
/-! DEFINITION. The host's written forms: the assembler lines of R94 with the operand checks an
assembler makes, the pseudo-instructions of R96 and the conditions of their loops, and the start-up
order of R201. The loops themselves stand in Machine/HostCode.lean. The step function reads none of
these. -/

namespace Sys2Proof.Machine

/-! ### Assembler lines (R94) -/

/-- `<reg>`: a register name of R25 or a number. -/
inductive RegOperand where
  | name (r : Reg)
  | number (n : Int)
  deriving DecidableEq, Repr

/-- One line of R94, as written, before its operands are checked. -/
inductive Line where
  | rd (r : RegOperand)
  | wr (r : RegOperand) (imm : Int)
  | conv (raw : Int)
  | tb
  | reset
  deriving DecidableEq, Repr

/-- A register operand is a name or a number 0 to 15 (R94). -/
def regOperandOk : RegOperand → Bool
  | .name _ => true
  | .number n => 0 ≤ n && n ≤ 15

/-- `<imm>` is -32768 to 65535 (R94). -/
def immOk (imm : Int) : Bool := -32768 ≤ imm && imm ≤ 65535

/-- `<raw>` is 0 to 1023 (R94). -/
def rawOk (raw : Int) : Bool := 0 ≤ raw && raw ≤ 1023

/-- The line's operands are in range; an assembler refuses any other line (R94). -/
def lineOk : Line → Bool
  | .rd r => regOperandOk r
  | .wr r imm => regOperandOk r && immOk imm
  | .conv raw => rawOk raw
  | .tb => true
  | .reset => true

/-- The register number of an operand (R25, R94). -/
def operandNumber : RegOperand → RegNum
  | .name r => regNumber r
  | .number n => wrap 4 n

/-- The transaction a line in range stands for (R94). -/
def lineTxn : Line → Instr
  | .rd r => rdOf (operandNumber r)
  | .wr r imm => wrOf (operandNumber r) (wrap 16 imm)
  | .conv raw => .conv (wrap 10 raw)
  | .tb => .tb
  | .reset => .reset

/-- The word of a line, `none` where the assembler refuses it (R94). -/
def assemble (l : Line) : Option TxnWord := if lineOk l then some (encode (lineTxn l)) else none

/-! ### Pseudo-instructions (R96) -/

/-- The pseudo-instructions of R96. -/
inductive Pseudo where
  | encSet (a b : RegVal)
  | clrSw
  | start
  | encOff
  | encOn
  | stop
  | poll (r : RegOperand) (mask val : RegVal)
  | waitTb (n : Nat)
  deriving DecidableEq, Repr

/-- `WAITTB n` takes 1 ≤ n ≤ 255, and the register of POLL is one of R94's (R96). -/
def pseudoOk : Pseudo → Bool
  | .poll r _ _ => regOperandOk r
  | .waitTb n => 1 ≤ n && n ≤ 255
  | _ => true

/-- The transactions of a pseudo-instruction; of one with a loop, those before and in its first pass
(R96). -/
def expand : Pseudo → List Instr
  | .encSet a b => [.wrEncL a, .wrEncR b]
  | .clrSw => [.wrStatus 1]
  | .start => [.wrCtrl 3]
  | .encOff => [.wrCtrl 2]
  | .encOn => [.wrCtrl 3]
  | .stop => [.wrCtrl 0]
  | .poll r _ _ => [rdOf (operandNumber r)]
  | .waitTb _ => [.rdTbTick, .rdTbTick]

/-- POLL leaves its loop on `v & mask = val` (R96). -/
def pollDone (mask val v : RegVal) : Bool := v &&& mask == val

/-- WAITTB leaves its loop unless `wrap_8(t - t0) < n` (R96). -/
def waitTbDone (n : Nat) (t0 t : RegVal) : Bool :=
  !decide ((wrap 8 ((t.toNat : Int) - t0.toNat)).toNat < n)

/-! ### The start-up order (R201) -/

/-- The start-up order of R201: set both counters, clear the switch flag, start with the gate on or
off. -/
def bootSequence (a b : RegVal) (gate : Bool) : List Instr :=
  expand (.encSet a b) ++ expand .clrSw ++ [.wrCtrl (if gate then 3 else 2)]

end Sys2Proof.Machine
end

