-- ==== Sys2Proof/Machine/HostCode.lean ====
section
/-! DEFINITION. Host code as the ACS sees it: the transactions the host takes, each chosen from the
values its earlier ones returned, with steps of other agents between them (R66). Every host loop has
this form: the loops of R96, the safe reading of the time (R205), and the waits a hook must not make
(R211). The step function reads none of these. -/

namespace Sys2Proof.Machine

/-! ### Host code and its runs -/

/-- What the host's transactions returned so far, the latest first; a WR, a RESET and a faulting RD
return no value (R150, R161). -/
abbrev History := List (Option RegVal)

/-- Host code: its next transaction from what its earlier ones returned, `none` where it ends. Its
control flow is the host's own, and only its transactions are steps of the ACS (R96). -/
structure HostCode where
  next : History → Option Instr

/-- One transaction of the host, and what it returned; `none` for a transaction the host cannot issue
(R85). -/
def hostTxn (i : Instr) (s : State) : Option (Option RegVal × State) :=
  if i.wellFormed .host then
    match exec i s.returnNothing with
    | .next t => some (t.reply, t)
    | .fault _ => none
    | .refused _ => none
  else none

/-- The code's next transaction, after the steps of `gap` that fall before it (R66); `none` where the
code has ended, or a step of the gap is refused. -/
def HostCode.takeNext (c : HostCode) (gap : List Instr) (h : History) (s : State) :
    Option (History × State) :=
  match c.next h, execAll gap s with
  | some i, .next u => (hostTxn i u).map fun r => (r.1 :: h, r.2)
  | some _, .fault _ => none
  | some _, .refused _ => none
  | none, _ => none

/-- The code's next transactions, one for each gap, the gap before it; `none` where the code ends
before. -/
def HostCode.advance (c : HostCode) : List (List Instr) → History → State → Option (History × State)
  | [], h, s => some (h, s)
  | gap :: gaps, h, s => (c.takeNext gap h s).bind fun r => c.advance gaps r.1 r.2

/-- The code run until it ends, the gaps falling before its transactions in order; `none` where it
has not ended when they are used up. -/
def HostCode.run (c : HostCode) : List (List Instr) → History → State → Option (History × State)
  | [], h, s => if (c.next h).isNone then some (h, s) else none
  | gap :: gaps, h, s =>
    if (c.next h).isNone then some (h, s)
    else (c.takeNext gap h s).bind fun r => c.run gaps r.1 r.2

/-- Code with no loop: the transactions in order. -/
def straightCode (is : List Instr) : HostCode := ⟨fun h => is[h.length]?⟩

/-- A loop: the transactions of `body` in order, pass after pass, until what a whole pass returned, the
latest first, lets it leave. -/
def loopCode (body : List Instr) (leave : History → Bool) : HostCode :=
  ⟨fun h =>
    if !h.isEmpty && h.length % body.length == 0 && leave (h.take body.length) then none
    else body[h.length % body.length]?⟩

/-! ### The pseudo-instructions as code (R96) -/

/-- `POLL reg, mask, val` (R96): read until the value read lets it leave. Of `POLL 15` the RD returns
no value (R161), and R96 does not say whether its loop then leaves; the model accepts the operand and
loops on (DESIGN CHOICE, log entry 16). -/
def pollCode (r : RegOperand) (mask val : RegVal) : HostCode :=
  ⟨fun
    | some v :: _ => if pollDone mask val v then none else some (rdOf (operandNumber r))
    | _ => some (rdOf (operandNumber r))⟩

/-- `WAITTB n` (R96): read t0, the oldest of the values read, then read until `wrap_8(t - t0)` is `n`
or more. -/
def waitTbCode (n : Nat) : HostCode :=
  ⟨fun h =>
    match h.head?, h.tail.getLast? with
    | some (some t), some (some t0) => if waitTbDone n t0 t then none else some .rdTbTick
    | _, _ => some .rdTbTick⟩

/-- The code of a pseudo-instruction (R96). -/
def pseudoCode : Pseudo → HostCode
  | .poll r mask val => pollCode r mask val
  | .waitTb n => waitTbCode n
  | p => straightCode (expand p)

/-- `POLL reg, mask, val`, the steps of `gaps` falling before its reads (R96). -/
def pollLoop (r : RegOperand) (mask val : RegVal) (gaps : List (List Instr)) (s : State) :
    Option State :=
  ((pollCode r mask val).run gaps [] s).map (·.2)

/-- `WAITTB n`, the steps of `gaps` falling before its reads (R96). -/
def waitTbLoop (n : Nat) (gaps : List (List Instr)) (s : State) : Option State :=
  ((waitTbCode n).run gaps [] s).map (·.2)

/-! ### The safe reading of the time (R205) -/

/-- One pass of the safe reading: elapsed, tick, elapsed again (R205). -/
def timeReadPass : List Instr := [.rdTbElapsed, .rdTbTick, .rdTbElapsed]

/-- The two readings of TB_ELAPSED in what a pass returned agree: e1 = e2 (R205). -/
def timeReadDone : History → Bool
  | [e2, _, e1] => e1 == e2
  | _ => false

/-- The safe reading of the time: the pass is repeated until e1 = e2 (R205). -/
def timeReadCode : HostCode := loopCode timeReadPass timeReadDone

/-- What the safe reading gives: (e1, t) of the pass whose readings of TB_ELAPSED agree, and the state
after it (R205). -/
def timeReadLoop (gaps : List (List Instr)) (s : State) : Option ((RegVal × RegVal) × State) :=
  match timeReadCode.run gaps [] s with
  | some (some _ :: some t :: some e1 :: _, u) => some ((e1, t), u)
  | _ => none

/-! ### Hooks that wait on events (R211) -/

/-- An event step: EV_TB or EV_CONV. -/
def isEvent : Instr → Bool
  | .conv _ => true
  | .tb => true
  | _ => false

/-- `u` differs from `s` only in state that events write, and as they may write it: SWP is set and
never cleared (R36). The host's own fields (CTRL, the fault record) and the parameters agree. -/
structure State.EventVariant (s u : State) : Prop where
  autoenc : u.autoenc = s.autoenc
  run : u.run = s.run
  swp : s.swp = true → u.swp = true
  faulted : u.faulted = s.faulted
  faults : u.faults = s.faults
  params : u.params = s.params

/-- After `n` more transactions, with event-written state changing before each of them, the code can
come to where `act` is its next transaction (its end, for `none`). -/
def HostCode.CanReach (c : HostCode) (act : Option Instr) : Nat → History → State → Prop
  | 0, h, _ => c.next h = act
  | n + 1, h, s =>
    ∃ u h' s', s.EventVariant u ∧ c.takeNext [] h u = some (h', s') ∧ c.CanReach act n h' s'

/-- The code waits for events to let it come to `act`: run on its own it goes on for ever and never
comes to `act`, while changes of event-written state, before one or several of its transactions, would
bring it there. -/
def HostCode.WaitsFor (c : HostCode) (act : Option Instr) (h : History) (s : State) : Prop :=
  (∀ n : Nat, ∃ h' s', c.advance (List.replicate n []) h s = some (h', s') ∧ c.next h' ≠ act) ∧
    ∃ n, c.CanReach act n h s

/-- The code waits on state that only EV_CONV or EV_TB can change (R211): at a point that a run of it
with events in between reaches, it waits for events to let it end, or go on to a transaction. On the
source's hardware such a hook hangs. What counts as such a wait, beside the loops of R96, is the
model's reading (DESIGN CHOICE, log entry 13). -/
def HostCode.Waits (c : HostCode) : Prop :=
  ∃ (gaps : List (List Instr)) (s₀ : State) (h : History) (s : State) (act : Option Instr),
    (∀ gap ∈ gaps, ∀ i ∈ gap, isEvent i = true) ∧ c.advance gaps [] s₀ = some (h, s) ∧
    c.WaitsFor act h s

/-- A hook run from TB_IRQ or CONV_IRQ, as the pieces of host code it runs in turn, that an admitted
host program may have: none of them waits on the ACS; a model refuses any other (R211, I7). -/
def hookAdmitted (hook : List HostCode) : Prop := ∀ c ∈ hook, ¬ c.Waits

/-! The same, decided, for hooks written in the pseudo-instructions. -/

/-- The bits of a register that its fields hold (R27 to R34). -/
def fieldBits : Reg → RegVal
  | .ctrl => 0x0003
  | .status => 0x000F
  | .sample _ => 0x03FF
  | .enc _ => 0xFFFF
  | .avg _ => 0x00FF
  | .edge => 0x0003
  | .tbTick => 0x00FF
  | .tbElapsed => 0xFFFF

/-- The values STATUS can read, with the SWP of each (R28). -/
def statusValues : List (Bool × RegVal) :=
  [.wheelL, .wheelR, .switches, .irL, .irR, .battery].flatMap fun c =>
    [false, true].map fun p => (p, (channelCode c ++ BitVec.ofBool p).setWidth 16)

/-- A POLL of this register can wait on events: some value does not let it leave, and events can
change it to one that does. CTRL is the host's own (R36), SWP is only set by events, and a bit that
no field names reads 0 and never changes (R26). -/
def regWaits (mask val : RegVal) : Reg → Bool
  | .ctrl => false
  | .status =>
    statusValues.any fun v => !pollDone mask val v.2 &&
      statusValues.any fun w => (!v.1 || w.1) && pollDone mask val w.2
  | r => val &&& ~~~(mask &&& fieldBits r) == 0 && mask &&& fieldBits r != 0

/-- The pseudo-instruction waits on state that only events can change: WAITTB, and a POLL whose
condition events can bring about; a POLL of the unmapped register reads no state (R96, R211). -/
def waitsOnEvents : Pseudo → Bool
  | .poll r mask val => (regOfNumber (operandNumber r)).any (regWaits mask val)
  | .waitTb _ => true
  | _ => false

/-- A hook written in pseudo-instructions that an admitted host program may have (R211, I7). -/
def pseudoHookAdmitted (hook : List Pseudo) : Bool := hook.all fun p => !waitsOnEvents p

end Sys2Proof.Machine
end

