-- ==== Sys2Proof/Safety.lean ====
section
/-! DEFINITION. What counts as a good run, in the terms claims use: the invariants every step keeps
(R38 and the form of the model's own records), the good final state (R181), infinite runs, and the
fairness premises FAIR_TB and FAIR_CONV (R216). -/

namespace Sys2Proof.Machine

/-- While RUN = 1 the one conversion in flight is of channel CUR, and while RUN = 0 there is none
(R24, R38). -/
def State.flightOk (s : State) : Prop := s.inFlight = if s.run then some s.cur else none

/-- `faulted` is set exactly when a reason has been recorded, and every reason is an access to r = 0xF
(R37, R181). -/
def State.faultRecordOk (s : State) : Prop :=
  (s.faulted = true ↔ s.faults ≠ []) ∧
    ∀ f ∈ s.faults, f = .unmappedRegister (.read 0xF) ∨
      ∃ v, f = .unmappedRegister (.write 0xF v)

/-- The pulses stand in the order of the steps that gave them, one at most per step, none from a step
still to come (R184). -/
def State.pulsesOk (s : State) : Prop :=
  s.pulses.Pairwise (fun p q => p.step < q.step) ∧ ∀ p ∈ s.pulses, p.step ≤ s.stepIndex

/-- The invariant of the machine. -/
structure State.Inv (s : State) : Prop where
  flight : s.flightOk
  faultRecord : s.faultRecordOk
  pulses : s.pulsesOk

/-- A good final state is one of a run that recorded no fault (R181). -/
def State.goodFinal (s : State) : Prop := s.faulted = false

/-- An infinite run: `txns n` leads from state `σ n` to state `σ (n + 1)` (R66). -/
def IsRun (σ : Nat → State) (txns : Nat → Instr) : Prop :=
  ∀ n, exec (txns n) (σ n) = .next (σ (n + 1))

/-- FAIR_TB: EV_TB steps infinitely often (R216). -/
def FairTb (txns : Nat → Instr) : Prop := ∀ n, ∃ m, n ≤ m ∧ txns m = .tb

/-- FAIR_CONV: if RUN = 1 from some point on, EV_CONV steps infinitely often (R216). -/
def FairConv (σ : Nat → State) (txns : Nat → Instr) : Prop :=
  (∃ k, ∀ n, k ≤ n → (σ n).run = true) → ∀ n, ∃ m raw, n ≤ m ∧ txns m = .conv raw

/-! ### Held levels and square waves (R137, R138) -/

/-- Every raw result of the list gives the 8-bit sample `level` (R131). -/
def atLevel (level : Nat) (raws : List Raw) : Prop := ∀ raw ∈ raws, raw.toNat / 4 = level

/-- The average has settled on a level: one more sample of it moves the average no further (R137). -/
def WheelState.settledAt (x : WheelState) (level : Nat) : Prop :=
  smooth x.avg.toNat level = x.avg.toNat

/-- A square wave between `lo` and `hi`: each period is a rise (samples of `hi`) and a fall (samples of
`lo`), each at least one sample long and held until the average has settled (R138). -/
def waveHeld (lo hi : Nat) : List (List Raw × List Raw) → WheelState → Prop
  | [], _ => True
  | (up, down) :: ps, x =>
    up ≠ [] ∧ down ≠ [] ∧ atLevel hi up ∧ atLevel lo down ∧
      (filterRun up x).settledAt hi ∧
      (filterRun down (filterRun up x)).settledAt lo ∧
      waveHeld lo hi ps (filterRun down (filterRun up x))

/-- The ticks of one held level: whether its first sample ticks, and how many of its later ones do. -/
def levelTicks (raws : List Raw) (x : WheelState) : Bool × Nat :=
  match raws with
  | [] => (false, 0)
  | raw :: rest => (ticksOn raw x, tickCount rest (edgeUpdate raw x))

/-- The ticks of each period of a square wave, those of its rise and those of its fall (R138). -/
def waveTicks : List (List Raw × List Raw) → WheelState → List ((Bool × Nat) × (Bool × Nat))
  | [], _ => []
  | (up, down) :: ps, x =>
    (levelTicks up x, levelTicks down (filterRun up x)) ::
      waveTicks ps (filterRun down (filterRun up x))

end Sys2Proof.Machine
end

