-- ==== Sys2Proof/Certificates/Slice0/Obligations.lean ====
section
/-! DEFINITION. The statements for the provers. Each docstring names the rule of spec/ it formalises. -/

open Sys2Proof Sys2Proof.Machine

/-! ### Encoding -/

/-- R95: the encoding examples: each line assembles to its word, the word decodes for the agent the
line is issued by, and executing `RD 15` faults. That the recorded fault ends in the outcome next is
the model's choice (log entry 5). -/
def Obligations.ExampleWordsDecode : Prop :=
  (assemble (.rd (.name (.sample .battery))) = some 0x17000000 ∧
    decode 0x17000000 .host = .txn .rdSample5) ∧
  (assemble (.rd (.name .status)) = some 0x11000000 ∧
    decode 0x11000000 .host = .txn .rdStatus) ∧
  (assemble (.wr (.name .ctrl) 3) = some 0x20000003 ∧
    decode 0x20000003 .host = .txn (.wrCtrl 3)) ∧
  (assemble (.wr (.name .status) 1) = some 0x21000001 ∧
    decode 0x21000001 .host = .txn (.wrStatus 1)) ∧
  (assemble (.wr (.name (.enc .left)) (-1)) = some 0x2800FFFF ∧
    decode 0x2800FFFF .host = .txn (.wrEncL 0xFFFF)) ∧
  (assemble (.wr (.name (.enc .right)) 0) = some 0x29000000 ∧
    decode 0x29000000 .host = .txn (.wrEncR 0)) ∧
  (assemble (.conv 1023) = some 0x800003FF ∧
    decode 0x800003FF .converter = .txn (.conv 1023)) ∧
  (assemble (.conv 512) = some 0x80000200 ∧
    decode 0x80000200 .converter = .txn (.conv 512)) ∧
  (assemble .tb = some 0x90000000 ∧ decode 0x90000000 .timeBase = .txn .tb) ∧
  (assemble .reset = some 0xF0000000 ∧ decode 0xF0000000 .host = .txn .reset) ∧
  (assemble (.rd (.number 15)) = some 0x1F000000 ∧ decode 0x1F000000 .host = .txn .rd15) ∧
  ∀ s : State, ∃ t, exec .rd15 s = .next t ∧ t.faulted = true

/-- R82, R86: for the agent a transaction is well formed for, decoding its word gives it back, with
every operand at every value. -/
def Obligations.DecodeOfEncode : Prop :=
  ∀ (i : Instr) (a : Agent), i.wellFormed a = true → decode (encode i) a = .txn i

/-- R82, R86: the other direction: a word that decodes is the word of its transaction, issued by its
agent, so no two words decode to one transaction. -/
def Obligations.DecodedWordsAreEncodings : Prop :=
  ∀ (w : TxnWord) (a : Agent) (i : Instr),
    decode w a = .txn i → encode i = w ∧ i.wellFormed a = true

/-- R93: exactly the listed words are refused as reserved, the all-zero word among them, and no step
happens. -/
def Obligations.ReservedWordsAreRefused : Prop :=
  (∀ (w : TxnWord) (a : Agent),
    decode w a = .refuse .reservedEncoding ↔
      w.toNat / 2 ^ 28 ∉ [0x1, 0x2, 0x8, 0x9, 0xF] ∨
      w.toNat / 2 ^ 16 % 2 ^ 8 ≠ 0 ∨
      (w.toNat / 2 ^ 28 = 0x1 ∧ w.toNat % 2 ^ 16 ≠ 0) ∨
      (w.toNat / 2 ^ 28 = 0x8 ∧ (w.toNat / 2 ^ 24 % 2 ^ 4 ≠ 0 ∨ w.toNat / 2 ^ 10 % 2 ^ 6 ≠ 0)) ∨
      ((w.toNat / 2 ^ 28 = 0x9 ∨ w.toNat / 2 ^ 28 = 0xF) ∧
        (w.toNat / 2 ^ 24 % 2 ^ 4 ≠ 0 ∨ w.toNat % 2 ^ 16 ≠ 0))) ∧
  (∀ a, decode 0x00000000 a = .refuse .reservedEncoding) ∧
  ∀ (s : State) (w : TxnWord) (a : Agent) (rest : List Offer),
    s.schedule = ⟨a, w⟩ :: rest → decode w a = .refuse .reservedEncoding →
      step s = .refused (.reservedEncoding w)

/-- R85: a word whose transaction belongs to one agent is refused for every other agent, and no step
happens; so the host cannot issue EV_CONV and the converter cannot issue WR. -/
def Obligations.OtherAgentsWordsAreRefused : Prop :=
  (∀ (w : TxnWord) (a b : Agent) (i : Instr),
    decode w a = .txn i → b ≠ a → decode w b = .refuse .wrongAgent) ∧
  (∀ raw, decode (encode (.conv raw)) .host = .refuse .wrongAgent) ∧
  (∀ r v, decode (encodeWr r v) .converter = .refuse .wrongAgent) ∧
  ∀ (s : State) (w : TxnWord) (b : Agent) (rest : List Offer),
    s.schedule = ⟨b, w⟩ :: rest → decode w b = .refuse .wrongAgent →
      step s = .refused (.wrongAgent w b)

/-- R63, R88: a word written as bytes is little-endian, low byte first, and only four bytes are a
word. -/
def Obligations.BytesAreLittleEndian : Prop :=
  (∀ (b0 b1 b2 b3 : Byte) (a : Agent),
    decodeBytes [b0, b1, b2, b3] a =
      decode (BitVec.ofNat 32
        (b0.toNat + 2 ^ 8 * b1.toNat + 2 ^ 16 * b2.toNat + 2 ^ 24 * b3.toNat)) a) ∧
  (∀ (w : TxnWord) (a : Agent), decodeBytes (bytesOfWord w) a = decode w a) ∧
  ∀ (bs : List Byte) (a : Agent), bs.length ≠ 4 → decodeBytes bs a = .refuse .notOneWord

/-- R87: the 35 rows of the opcode table are pairwise disjoint, and a word that no row matches is
refused, for every agent. -/
def Obligations.OpcodeRowsAreDisjoint : Prop :=
  opcodeTable.length = 35 ∧
  opcodeTable.Pairwise (fun p q => ∀ w : TxnWord, p.matches w = true → q.matches w = false) ∧
  ∀ (w : TxnWord) (a : Agent), (∀ row ∈ opcodeTable, row.matches w = false) →
    decode w a = .refuse .reservedEncoding

/-! ### Reset -/

/-- R160: RESET from any state: every state of R39 takes its reset value, the conversion in flight is
abandoned, and the fault record, the run's history and everything else stay. -/
def Obligations.ResetTransaction : Prop :=
  decode 0xF0000000 .host = .txn .reset ∧
  ∀ s : State, exec .reset s = .next
    { s with
      cur := .wheelL, autoenc := false, run := false, inFlight := none, swp := false,
      samples := ⟨0, 0, 0, 0, 0, 0⟩,
      wheelL := ⟨s.params.avgResetL, s.params.signResetL, 0⟩,
      wheelR := ⟨s.params.avgResetR, s.params.signResetR, 0⟩,
      tbTick := 0, tbElapsed := 0 }

/-- R39, R200: power-on has the effect of RESET, whatever was before: with the same parameters every
register reads the same; every register reads 0 but AVG_L, AVG_R and EDGE, which read their
parameters (EDGE one bit for each wheel's sign); no conversion is in flight and no fault is recorded. That EDGE, AVG and the parameters
are opaque constants of Config is the model's (log entry 2). -/
def Obligations.PowerOnIsReset : Prop :=
  (∀ s t : State, s.params = State.reset.params → exec .reset s = .next t →
    ∀ r : Reg, view t r = view State.reset r) ∧
  (∀ r : Reg, r ≠ .avg .left → r ≠ .avg .right → r ≠ .edge → view State.reset r = 0) ∧
  (∀ w : Wheel, (view State.reset (.avg w)).toNat = (Config.avgReset w).toNat) ∧
  (∀ w : Wheel, (State.reset.wheel w).sign = Config.signReset w) ∧
  view State.reset .edge = BitVec.ofNat 16
    (2 * (if Config.signReset .right = .minus then 1 else 0) +
      (if Config.signReset .left = .minus then 1 else 0)) ∧
  State.reset.inFlight = none ∧ State.reset.faulted = false ∧ State.reset.faults = []

/-! ### Host reads -/

/-- R150: RD of each mapped register returns its view, reserved bits 0, and changes nothing else; RD of
0xF raises the fault; each with its word. That the recorded fault ends in the outcome next is the
model's choice (log entry 5). -/
def Obligations.ReadsReturnTheRegister : Prop :=
  (decode 0x10000000 .host = .txn .rdCtrl ∧ decode 0x11000000 .host = .txn .rdStatus ∧
    decode 0x12000000 .host = .txn .rdSample0 ∧ decode 0x13000000 .host = .txn .rdSample1 ∧
    decode 0x14000000 .host = .txn .rdSample2 ∧ decode 0x15000000 .host = .txn .rdSample3 ∧
    decode 0x16000000 .host = .txn .rdSample4 ∧ decode 0x17000000 .host = .txn .rdSample5 ∧
    decode 0x18000000 .host = .txn .rdEncL ∧ decode 0x19000000 .host = .txn .rdEncR ∧
    decode 0x1A000000 .host = .txn .rdAvgL ∧ decode 0x1B000000 .host = .txn .rdAvgR ∧
    decode 0x1C000000 .host = .txn .rdEdge ∧ decode 0x1D000000 .host = .txn .rdTbTick ∧
    decode 0x1E000000 .host = .txn .rdTbElapsed ∧ decode 0x1F000000 .host = .txn .rd15) ∧
  ∀ s : State,
    exec .rdCtrl s = .next
      { s with reply := some (BitVec.ofNat 16 (2 * s.run.toNat + s.autoenc.toNat)) } ∧
    exec .rdStatus s = .next
      { s with reply := some (BitVec.ofNat 16 (2 * (channelCode s.cur).toNat + s.swp.toNat)) } ∧
    exec .rdSample0 s = .next
      { s with reply := some (BitVec.ofNat 16 s.samples.wheelL.toNat) } ∧
    exec .rdSample1 s = .next
      { s with reply := some (BitVec.ofNat 16 s.samples.wheelR.toNat) } ∧
    exec .rdSample2 s = .next
      { s with reply := some (BitVec.ofNat 16 s.samples.switches.toNat) } ∧
    exec .rdSample3 s = .next { s with reply := some (BitVec.ofNat 16 s.samples.irL.toNat) } ∧
    exec .rdSample4 s = .next { s with reply := some (BitVec.ofNat 16 s.samples.irR.toNat) } ∧
    exec .rdSample5 s = .next
      { s with reply := some (BitVec.ofNat 16 s.samples.battery.toNat) } ∧
    exec .rdEncL s = .next { s with reply := some (BitVec.ofInt 16 s.wheelL.enc.toInt) } ∧
    exec .rdEncR s = .next { s with reply := some (BitVec.ofInt 16 s.wheelR.enc.toInt) } ∧
    exec .rdAvgL s = .next { s with reply := some (BitVec.ofNat 16 s.wheelL.avg.toNat) } ∧
    exec .rdAvgR s = .next { s with reply := some (BitVec.ofNat 16 s.wheelR.avg.toNat) } ∧
    exec .rdEdge s = .next
      { s with reply := some (BitVec.ofNat 16
          (2 * (if s.wheelR.sign = .minus then 1 else 0) +
            (if s.wheelL.sign = .minus then 1 else 0))) } ∧
    exec .rdTbTick s = .next { s with reply := some (BitVec.ofNat 16 s.tbTick.toNat) } ∧
    exec .rdTbElapsed s = .next { s with reply := some s.tbElapsed } ∧
    exec .rd15 s = .next
      { s with
        reply := none, faulted := true,
        faults := s.faults ++ [.unmappedRegister (.read 0xF)] }

/-- R161: RD and WR of r = 0xF record the fault with its direction, number and write data; no state of
R21 but the fault mark changes, and a faulting RD returns no value. That the run goes on, in the outcome
next, is the model's choice (log entry 5). -/
def Obligations.UnmappedAccessIsRecorded : Prop :=
  (∀ v : RegVal, decode (0x2F000000 ||| v.setWidth 32) .host = .txn (.wr15 v)) ∧
  decode 0x1F000000 .host = .txn .rd15 ∧
  ∀ (s : State) (v : RegVal),
    exec .rd15 s = .next
      { s with
        reply := none, faulted := true,
        faults := s.faults ++ [.unmappedRegister (.read 0xF)] } ∧
    exec (.wr15 v) s = .next
      { s with faulted := true, faults := s.faults ++ [.unmappedRegister (.write 0xF v)] }

/-- R65: no RD of a register changes anything but the value returned, two RDs of one register with
nothing between return the same value, and repeating a WR has no further effect. -/
def Obligations.AccessesAreIdempotent : Prop :=
  (∀ (r : Reg) (s : State), ∃ v, exec (rdOf (regNumber r)) s = .next { s with reply := some v } ∧
    ∀ t, exec (rdOf (regNumber r)) s = .next t → exec (rdOf (regNumber r)) t = .next t) ∧
  (∀ (r : Reg) (v : RegVal) (s t : State),
    exec (wrOf (regNumber r) v) s = .next t → exec (wrOf (regNumber r) v) t = .next t) ∧
  ∀ (r : Reg) (v : RegVal) (s : State),
    accessRight r = .readOnly → exec (wrOf (regNumber r) v) s = .next s

/-! ### Host writes -/

/-- R156: WR CTRL keeps only bits 1:0; a 0 to 1 write of RUN starts the rotation at channel 0, a 1 to 0
write abandons the conversion in flight and leaves CUR, and any other leaves the rotation as it
was. -/
def Obligations.WriteCtrl : Prop :=
  (∀ v : RegVal, decode (0x20000000 ||| v.setWidth 32) .host = .txn (.wrCtrl v)) ∧
  ∀ (s : State) (v : RegVal), exec (.wrCtrl v) s = .next
    (if s.run = false ∧ v.getLsbD 1 = true then
      { s with autoenc := v.getLsbD 0, run := true, cur := .wheelL, inFlight := some .wheelL }
    else if s.run = true ∧ v.getLsbD 1 = false then
      { s with autoenc := v.getLsbD 0, run := false, inFlight := none }
    else { s with autoenc := v.getLsbD 0, run := v.getLsbD 1 })

/-- R157: WR STATUS clears SWP exactly when bit 0 of the data is 1, and changes nothing else. -/
def Obligations.WriteStatus : Prop :=
  (∀ v : RegVal, decode (0x21000000 ||| v.setWidth 32) .host = .txn (.wrStatus v)) ∧
  ∀ (s : State) (v : RegVal), exec (.wrStatus v) s = .next
    { s with swp := if v.getLsbD 0 = true then false else s.swp }

/-- R158: WR ENC_L and WR ENC_R set one counter to the data read as two's complement, and neither read
nor change AVG or SIGN, the other wheel, or anything else. -/
def Obligations.WriteEnc : Prop :=
  (∀ v : RegVal, decode (0x28000000 ||| v.setWidth 32) .host = .txn (.wrEncL v) ∧
    decode (0x29000000 ||| v.setWidth 32) .host = .txn (.wrEncR v)) ∧
  ∀ (s : State) (v : RegVal),
    exec (.wrEncL v) s = .next { s with wheelL := { s.wheelL with enc := BitVec.ofInt 16 v.toInt } } ∧
    exec (.wrEncR v) s = .next { s with wheelR := { s.wheelR with enc := BitVec.ofInt 16 v.toInt } }

/-- R159: WR of a read-only register changes no state and raises no fault. -/
def Obligations.WriteReadOnlyRegister : Prop :=
  ∀ (s : State) (v : RegVal),
    exec (.wrSample0 v) s = .next s ∧ exec (.wrSample1 v) s = .next s ∧
    exec (.wrSample2 v) s = .next s ∧ exec (.wrSample3 v) s = .next s ∧
    exec (.wrSample4 v) s = .next s ∧ exec (.wrSample5 v) s = .next s ∧
    exec (.wrAvgL v) s = .next s ∧ exec (.wrAvgR v) s = .next s ∧
    exec (.wrEdge v) s = .next s ∧ exec (.wrTbTick v) s = .next s ∧
    exec (.wrTbElapsed v) s = .next s

/-- R26: a bit that no field names reads 0 in every register of every state, and a write to one is
ignored; a write to a read-only register changes nothing and raises no fault. -/
def Obligations.ReservedBitsReadZero : Prop :=
  (∀ s : State,
    (view s .ctrl).toNat < 2 ^ 2 ∧ (view s .status).toNat < 2 ^ 4 ∧
    (∀ c, (view s (.sample c)).toNat < 2 ^ 10) ∧ (∀ w, (view s (.avg w)).toNat < 2 ^ 8) ∧
    (view s .edge).toNat < 2 ^ 2 ∧ (view s .tbTick).toNat < 2 ^ 8) ∧
  (∀ (s : State) (v u : RegVal), v &&& 0x3 = u &&& 0x3 →
    exec (.wrCtrl v) s = exec (.wrCtrl u) s) ∧
  (∀ (s : State) (v u : RegVal), v &&& 0x1 = u &&& 0x1 →
    exec (.wrStatus v) s = exec (.wrStatus u) s) ∧
  ∀ (s : State) (r : Reg) (v : RegVal), accessRight r = .readOnly →
    exec (wrOf (regNumber r) v) s = .next s

/-! ### The time base -/

/-- R101: EV_TB counts TB_TICK modulo 2^8 and its wraps in TB_ELAPSED modulo 2^16, pulses TB_IRQ, and
changes nothing else, whatever RUN and AUTOENC are. -/
def Obligations.TimeBaseTick : Prop :=
  decode 0x90000000 .timeBase = .txn .tb ∧
  ∀ s : State, exec .tb s = .next
    { s with
      tbTick := BitVec.ofNat 8 ((s.tbTick.toNat + 1) % 256),
      tbElapsed :=
        if s.tbTick.toNat = 255 then BitVec.ofNat 16 ((s.tbElapsed.toNat + 1) % 65536)
        else s.tbElapsed,
      pulses := s.pulses ++ [⟨.tbIrq, s.stepIndex⟩] }

/-- R102: after n EV_TB since the last RESET, with any other transactions but RESET among them,
TB_ELAPSED * 256 + TB_TICK = n mod 2^24. -/
def Obligations.ElapsedTotal : Prop :=
  ∀ (s r t : State) (txns : List Instr), exec .reset s = .next r → .reset ∉ txns →
    execAll txns r = .next t →
      t.tbElapsed.toNat * 256 + t.tbTick.toNat = txns.count .tb % 2 ^ 24

/-! ### EV_CONV -/

/-- R113: EV_CONV while RUN = 1, with its word: the slot of CUR takes the result, the edge detector runs
on a wheel channel exactly when AUTOENC = 1, the switches channel's result may set SWP, CUR
advances, the next conversion starts, CONV_IRQ is pulsed, and nothing else changes; while RUN = 0 the
converter has no step (the refusal's name is the model's, log entry 6). -/
def Obligations.ConversionComplete : Prop :=
  (∀ raw : Raw, decode (0x80000000 ||| raw.setWidth 32) .converter = .txn (.conv raw)) ∧
  (∀ (s : State) (raw : Raw), s.run = true → ∃ t, exec (.conv raw) s = .next t ∧
    (∀ c, t.sample c = if c = s.cur then raw else s.sample c) ∧
    (∀ w, t.wheel w =
      if s.autoenc = true ∧ (s.cur = .wheelL ∧ w = .left ∨ s.cur = .wheelR ∧ w = .right) then
        edgeUpdate raw (s.wheel w)
      else s.wheel w) ∧
    (t.swp = true ↔
      s.swp = true ∨ (s.cur = .switches ∧ raw.toNat < s.params.swThreshold.toNat)) ∧
    (channelCode t.cur).toNat = ((channelCode s.cur).toNat + 1) % 6 ∧
    t.inFlight = some t.cur ∧
    t.pulses = s.pulses ++ [⟨.convIrq, s.stepIndex⟩] ∧
    t.autoenc = s.autoenc ∧ t.run = true ∧ t.tbTick = s.tbTick ∧ t.tbElapsed = s.tbElapsed ∧
    t.faulted = s.faulted ∧ t.faults = s.faults ∧ t.reply = s.reply ∧
    t.stepIndex = s.stepIndex ∧ t.schedule = s.schedule ∧ t.params = s.params) ∧
  ∀ (s : State) (raw : Raw), s.run = false →
    exec (.conv raw) s = .refused (.converterStopped raw)

/-- R117: the switch test in an EV_CONV with CUR = 2, in full: strict, unsigned, on 10 bits, whatever
AUTOENC is, and never clearing SWP. -/
def Obligations.SwitchTest : Prop :=
  ∀ (s : State) (raw : Raw), s.run = true → s.cur = .switches →
    exec (.conv raw) s = .next
      { s with
        samples := { s.samples with switches := raw },
        swp := if raw.toNat < s.params.swThreshold.toNat then true else s.swp,
        cur := .irL, inFlight := some .irL,
        pulses := s.pulses ++ [⟨.convIrq, s.stepIndex⟩] }

/-- R133: edge_update on integers, at both wheel channels with the gate open: the average is the exact
integer of the rule, the deviation is taken from it, and exactly a tick counts and flips the sign;
the other wheel is untouched. -/
def Obligations.EdgeUpdateRule : Prop :=
  ∀ (s : State) (raw : Raw) (w : Wheel), s.run = true → s.autoenc = true →
    s.cur = (match w with | .left => Channel.wheelL | .right => .wheelR) →
    ∃ t, exec (.conv raw) s = .next t ∧
      (∀ w', w' ≠ w → t.wheel w' = s.wheel w') ∧
      ∀ sm a a' e sgn : Int, sm = (raw.toNat / 4 : Nat) → a = (s.wheel w).avg.toNat →
        a' = a + (sm - a) / 4 → e = sm - a' →
        sgn = (if (s.wheel w).sign = .plus then 1 else -1) →
        ((t.wheel w).avg.toNat : Int) = a' ∧
        (if sgn * e > 2 then
          (t.wheel w).enc.toInt = ((s.wheel w).enc.toInt + 1).bmod (2 ^ 16) ∧
          (t.wheel w).sign = (if (s.wheel w).sign = .plus then Sign.minus else .plus)
        else (t.wheel w).enc = (s.wheel w).enc ∧ (t.wheel w).sign = (s.wheel w).sign)

/-- R132: the new average lies between the old one and the sample, inclusive, as the exact integer of
the rule, so no wrap can occur. -/
def Obligations.AverageStaysBetween : Prop :=
  ∀ (raw : Raw) (x : WheelState),
    ((edgeUpdate raw x).avg.toNat : Int) =
      x.avg.toNat + (((raw.toNat / 4 : Nat) : Int) - x.avg.toNat) / 4 ∧
    min x.avg.toNat (raw.toNat / 4) ≤ (edgeUpdate raw x).avg.toNat ∧
    (edgeUpdate raw x).avg.toNat ≤ max x.avg.toNat (raw.toNat / 4)

/-- R136, items 1, 4, 5 and 6: the asymmetric tick thresholds, the two full-scale corners, the counter's
overflow, and the two raw bits that do not reach the filter. -/
def Obligations.TickThresholds : Prop :=
  (∀ (raw : Raw) (x : WheelState), x.sign = .plus →
    (ticksOn raw x = true ↔ x.avg.toNat + 3 ≤ raw.toNat / 4)) ∧
  (∀ (raw : Raw) (x : WheelState), x.sign = .minus →
    (ticksOn raw x = true ↔ raw.toNat / 4 + 4 ≤ x.avg.toNat)) ∧
  (∀ (raw : Raw) (x : WheelState), x.avg = 0 → raw.toNat / 4 = 255 →
    (edgeUpdate raw x).avg = 63) ∧
  (∀ (raw : Raw) (x : WheelState), x.avg = 255 → raw.toNat / 4 = 0 →
    (edgeUpdate raw x).avg = 191) ∧
  (∀ (raw : Raw) (x : WheelState), x.enc.toInt = 32767 → ticksOn raw x = true →
    (edgeUpdate raw x).enc.toInt = -32768) ∧
  ∀ (raw raw' : Raw) (x : WheelState), raw.toNat / 4 = raw'.toNat / 4 →
    edgeUpdate raw x = edgeUpdate raw' x

/-- R134: an EV_CONV that counts a tick on a wheel flips its sign, nothing but a tick and RESET writes
it, and a tick needs a deviation of the sign it leaves: more than 2 above under +1, more than 2 below
under -1; so a tick on a wheel leaves the sign that a tick of the opposite deviation needs. -/
def Obligations.SignAlternates : Prop :=
  (∀ (s t : State) (raw : Raw) (w : Wheel), exec (.conv raw) s = .next t →
    (t.wheel w).enc ≠ (s.wheel w).enc → (t.wheel w).sign ≠ (s.wheel w).sign) ∧
  (∀ (raw : Raw) (x : WheelState), (edgeUpdate raw x).enc ≠ x.enc →
    (x.sign = .plus ∧ (edgeUpdate raw x).sign = .minus ∧
      (edgeUpdate raw x).avg.toNat + 2 < raw.toNat / 4) ∨
    (x.sign = .minus ∧ (edgeUpdate raw x).sign = .plus ∧
      raw.toNat / 4 + 2 < (edgeUpdate raw x).avg.toNat)) ∧
  (∀ (i : Instr) (s t : State) (w : Wheel), exec i s = .next t → i ≠ .reset →
    (t.wheel w).sign ≠ (s.wheel w).sign →
      ∃ raw, i = .conv raw ∧ ticksOn raw (s.wheel w) = true ∧
        (t.wheel w).enc = (s.wheel w).enc + 1) ∧
  ∀ (raw : Raw) (x : WheelState), ticksOn raw x = true →
    (x.sign = .plus ∧ (edgeUpdate raw x).sign = .minus ∧
      (edgeUpdate raw x).avg.toNat + 2 < raw.toNat / 4) ∨
    (x.sign = .minus ∧ (edgeUpdate raw x).sign = .plus ∧
      raw.toNat / 4 + 2 < (edgeUpdate raw x).avg.toNat)

/-- R135: between two host writes of the counters (and with no RESET) a counter only counts up, modulo
2^16, by at most one for each EV_CONV. -/
def Obligations.CountersOnlyCountUp : Prop :=
  ∀ (txns : List Instr) (s t : State) (w : Wheel), execAll txns s = .next t →
    (∀ i ∈ txns, i ≠ .reset ∧ ∀ v, i ≠ .wrEncL v ∧ i ≠ .wrEncR v) →
      ∃ n, n ≤ (convResults txns).length ∧
        (t.wheel w).enc.toInt = ((s.wheel w).enc.toInt + n).bmod (2 ^ 16)

/-- R137: a constant signal: the average settles where the rule says; once it has settled only the one
tick with e = 3 and SIGN = +1 can come, and leaves SIGN = -1; and from any state the signal gives at
most one tick in total. -/
def Obligations.StaticSignal : Prop :=
  ∀ (level : Nat) (raws : Nat → Raw) (x : WheelState), (∀ n, (raws n).toNat / 4 = level) →
    (level < x.avg.toNat → ∃ k, ∀ n, k ≤ n →
      (filterRun ((List.range n).map raws) x).avg.toNat = level) ∧
    (x.avg.toNat + 3 ≤ level → ∃ k, ∀ n, k ≤ n →
      (filterRun ((List.range n).map raws) x).avg.toNat + 3 = level) ∧
    (x.avg.toNat ≤ level → level ≤ x.avg.toNat + 2 → ∀ n,
      (filterRun ((List.range n).map raws) x).avg = x.avg) ∧
    (x.settledAt level → ∀ n, ticksOn (raws n) x = true →
      x.sign = .plus ∧ (edgeUpdate (raws n) x).avg.toNat + 3 = level ∧
        (edgeUpdate (raws n) x).sign = .minus) ∧
    ∀ n, tickCount ((List.range n).map raws) x ≤ 1

/-- R138: a square wave of height D from a settled low level under SIGN = +1: for D ≥ 7 every rise and
every fall ticks once, on its first sample; for 3 ≤ D ≤ 6 only the first rise ticks; for D ≤ 2 nothing
does. -/
def Obligations.SquareWave : Prop :=
  ∀ (lo d : Nat) (periods : List (List Raw × List Raw)) (x : WheelState),
    x.avg.toNat = lo → x.sign = .plus → waveHeld lo (lo + d) periods x →
      (7 ≤ d → waveTicks periods x =
        List.replicate periods.length ((true, 0), (true, 0))) ∧
      (3 ≤ d → d ≤ 6 → periods ≠ [] → waveTicks periods x =
        ((true, 0), (false, 0)) ::
          List.replicate (periods.length - 1) ((false, 0), (false, 0))) ∧
      (d ≤ 2 → waveTicks periods x =
        List.replicate periods.length ((false, 0), (false, 0)))

/-- R139: while AUTOENC = 0 no EV_CONV changes ENC, AVG or SIGN; only host writes (of ENC) and RESET
do; so a schedule that has neither and leaves CTRL alone changes none of them. -/
def Obligations.GateOffFreezesTheWheels : Prop :=
  (∀ (raw : Raw) (s t : State), s.autoenc = false → exec (.conv raw) s = .next t →
    t.wheelL = s.wheelL ∧ t.wheelR = s.wheelR) ∧
  (∀ (i : Instr) (s t : State) (w : Wheel), s.autoenc = false → exec i s = .next t →
    t.wheel w ≠ s.wheel w →
      i = .reset ∨
      ((t.wheel w).avg = (s.wheel w).avg ∧ (t.wheel w).sign = (s.wheel w).sign ∧
        ∃ v, i = (match w with | .left => Instr.wrEncL v | .right => .wrEncR v))) ∧
  ∀ (txns : List Instr) (s t : State), s.autoenc = false → execAll txns s = .next t →
    (∀ i ∈ txns, i ≠ .reset ∧ ∀ v, i ≠ .wrCtrl v ∧ i ≠ .wrEncL v ∧ i ≠ .wrEncR v) →
      t.wheelL = s.wheelL ∧ t.wheelR = s.wheelR

/-! ### Whole-machine rules -/

/-- R36: the fixed writers of each field, over all transactions but RESET. -/
def Obligations.FieldsHaveTheirWriters : Prop :=
  ∀ (i : Instr) (s t : State), exec i s = .next t → i ≠ .reset →
    (t.samples ≠ s.samples → ∃ raw, i = .conv raw) ∧
    (∀ w, (t.wheel w).avg ≠ (s.wheel w).avg → ∃ raw, i = .conv raw) ∧
    (∀ w, (t.wheel w).sign ≠ (s.wheel w).sign → ∃ raw, i = .conv raw) ∧
    (∀ w, (t.wheel w).enc ≠ (s.wheel w).enc →
      (∃ raw, i = .conv raw ∧ (t.wheel w).enc = (s.wheel w).enc + 1) ∨
      ∃ v, (i = match w with | .left => Instr.wrEncL v | .right => .wrEncR v) ∧
        (t.wheel w).enc = v) ∧
    (t.swp ≠ s.swp →
      (∃ raw, i = .conv raw ∧ t.swp = true) ∨ ∃ v, i = .wrStatus v ∧ t.swp = false) ∧
    (t.autoenc ≠ s.autoenc → ∃ v, i = .wrCtrl v) ∧
    (t.run ≠ s.run → ∃ v, i = .wrCtrl v) ∧
    (t.cur ≠ s.cur → (∃ raw, i = .conv raw) ∨
      ∃ v, i = .wrCtrl v ∧ s.run = false ∧ t.run = true) ∧
    (t.tbTick ≠ s.tbTick → i = .tb) ∧ (t.tbElapsed ≠ s.tbElapsed → i = .tb)

/-- R22: CUR, 0 to 5 in every state, changes in exactly three ways: EV_CONV advances it modulo 6, a
start write sets it to 0, and RESET sets it to 0. -/
def Obligations.CurChangesInThreeWays : Prop :=
  (∀ s : State, (channelCode s.cur).toNat ≤ 5) ∧
  (∀ (raw : Raw) (s t : State), exec (.conv raw) s = .next t →
    (channelCode t.cur).toNat = ((channelCode s.cur).toNat + 1) % 6) ∧
  (∀ (v : RegVal) (s t : State), exec (.wrCtrl v) s = .next t → s.run = false → t.run = true →
    t.cur = .wheelL) ∧
  (∀ s t : State, exec .reset s = .next t → t.cur = .wheelL) ∧
  ∀ (i : Instr) (s t : State), exec i s = .next t → t.cur ≠ s.cur →
    (∃ raw, i = .conv raw) ∨ (∃ v, i = .wrCtrl v ∧ s.run = false ∧ t.run = true) ∨ i = .reset

/-- R37: at the start of a run nothing is recorded; no transaction, RESET included, clears `faulted` or
drops a recorded reason. -/
def Obligations.FaultsAreKept : Prop :=
  State.reset.faulted = false ∧ State.reset.faults = [] ∧
  (∀ (s : State) (f : Fault), (s.raiseFault f).faulted = true ∧
    (s.raiseFault f).faults = s.faults ++ [f]) ∧
  ∀ (i : Instr) (s t : State), exec i s = .next t →
    (s.faulted = true → t.faulted = true) ∧ ∃ more, t.faults = s.faults ++ more

/-- R180: EV_CONV, EV_TB, RESET, and RD or WR to a mapped register never fault. That no transaction and
no step, those of RD 15 and WR 15 among them, ends in the outcome fault is the model's choice (log
entry 5). -/
def Obligations.MappedTransactionsNeverFault : Prop :=
  (∀ (i : Instr) (s t : State), exec i s = .next t → i ≠ .rd15 → (∀ v, i ≠ .wr15 v) →
    t.faulted = s.faulted ∧ t.faults = s.faults) ∧
  (∀ (i : Instr) (s : State) (f : Fault), exec i s ≠ .fault f) ∧
  ∀ (s : State) (f : Fault), step s ≠ .fault f

/-- R184: TB_IRQ is pulsed once per EV_TB and CONV_IRQ once per EV_CONV, at the step's index, and
neither by any other transaction. -/
def Obligations.PulsesOncePerEvent : Prop :=
  ∀ (i : Instr) (s t : State), exec i s = .next t →
    t.pulses = s.pulses ++ (match i with
      | .tb => [⟨.tbIrq, s.stepIndex⟩]
      | .conv _ => [⟨.convIrq, s.stepIndex⟩]
      | _ => [])

/-- R7: no step changes the OPEN parameters; every step takes the first offered word and no other, has
the next index, and keeps the history. The fields `schedule`, `stepIndex` and `params` are the
model's own (log entries 1 and 3). -/
def Obligations.StepKeepsParametersAndHistory : Prop :=
  ∀ s t : State, step s = .next t →
    t.params = s.params ∧ t.schedule = s.schedule.tail ∧ t.stepIndex = s.stepIndex + 1 ∧
    (∃ more, t.pulses = s.pulses ++ more ∧ more.length ≤ 1) ∧
    ∃ more, t.faults = s.faults ++ more ∧ more.length ≤ 1

/-- R66, R86: when the first offered word decodes for its agent, the step is `exec` of that
transaction in the same state, but with the word taken off the schedule, the step counted, and no
value returned yet. -/
def Obligations.StepRunsTheDecodedTransaction : Prop :=
  ∀ (s : State) (o : Offer) (rest : List Offer) (i : Instr),
    s.schedule = o :: rest → decode o.word o.agent = .txn i →
      step s = exec i { s with schedule := rest, stepIndex := s.stepIndex + 1, reply := none }

/-- R185, and I6 of spec/93: with no word offered, the step is that of some transaction an enabled agent
can take, and it takes place. The free choice is the model's opaque constant (log entry 4). -/
def Obligations.FreeChoiceStepsAnEnabledAgent : Prop :=
  ∀ s : State, s.schedule = [] → ∃ i t, s.enabled i = true ∧ step s = .next t ∧
    exec i { s with stepIndex := s.stepIndex + 1, reply := none } = .next t

/-- R38, R37, R184: from every state that meets the invariant (the conversion in flight is CUR's exactly
while RUN = 1, the fault mark agrees with its list of unmapped accesses, the pulses stand in
order), a step gives a state that meets it. -/
def Obligations.StepKeepsInvariant : Prop :=
  ∀ s t : State, s.Inv → step s = .next t → t.Inv

/-- R39: the invariant holds at power-on. That no pulse is on record there is the model's choice (log
entry 9). -/
def Obligations.PowerOnMeetsInvariant : Prop := State.reset.Inv

/-- R67: EV_TB and EV_CONV write no common field, so their order changes no register, no wheel, no
conversion in flight and no fault record. -/
def Obligations.EventsCommute : Prop :=
  ∀ (raw : Raw) (s t u : State), execAll [.tb, .conv raw] s = .next t →
    execAll [.conv raw, .tb] s = .next u →
      (∀ r : Reg, view t r = view u r) ∧ t.wheelL = u.wheelL ∧ t.wheelR = u.wheelR ∧
      t.samples = u.samples ∧ t.inFlight = u.inFlight ∧ t.faulted = u.faulted ∧
      t.faults = u.faults ∧ { t with pulses := [] } = { u with pulses := [] }

/-! ### Runs -/

/-- R118: after a start write, with no RESET and no other start write in between, the k-th EV_CONV
completes channel (k - 1) mod 6: when k - 1 of them have been taken, CUR is that channel, and the next
EV_CONV stores its result in that channel's slot. -/
def Obligations.ChannelSequence : Prop :=
  ∀ (v : RegVal) (s t u : State) (txns : List Instr), isStart s (.wrCtrl v) = true →
    exec (.wrCtrl v) s = .next t → noRestart txns t = true → execAll txns t = .next u →
      (channelCode u.cur).toNat = (convResults txns).length % 6 ∧
      ∀ raw : Raw, u.run = true → ∃ w, exec (.conv raw) u = .next w ∧
        ∀ c : Channel, (channelCode c).toNat = (convResults txns).length % 6 → w.sample c = raw

/-- R119: since a start write the j-th latest EV_CONV (j < 6) left its result in its channel's slot, and
a channel that has not completed since the start holds what it held. -/
def Obligations.SlotsAreFresh : Prop :=
  ∀ (v : RegVal) (s t u : State) (txns : List Instr), isStart s (.wrCtrl v) = true →
    exec (.wrCtrl v) s = .next t → noRestart txns t = true → execAll txns t = .next u →
      (∀ k, k < (convResults txns).length → (convResults txns).length ≤ k + 6 →
        ∀ c : Channel, (channelCode c).toNat = k % 6 →
          some (u.sample c) = (convResults txns)[k]?) ∧
      ∀ c : Channel, (convResults txns).length ≤ (channelCode c).toNat →
        u.sample c = s.sample c

/-- R202: a host that sees STATUS.CUR = 5 after a start write and later sees another value knows that
every channel has completed since the start. -/
def Obligations.FirstValidSamples : Prop :=
  ∀ (v : RegVal) (s t u w : State) (before after : List Instr),
    isStart s (.wrCtrl v) = true → exec (.wrCtrl v) s = .next t →
    noRestart (before ++ after) t = true → execAll before t = .next u →
    execAll after u = .next w →
    (view u .status).toNat / 2 = 5 → (view w .status).toNat / 2 ≠ 5 →
      6 ≤ (convResults (before ++ after)).length

/-- R206: a tick between a RD of a counter and a WR of 0 to it is lost: it is neither in the value read
nor in the counter afterwards. -/
def Obligations.ReadThenResetLosesTick : Prop :=
  ∀ (s : State) (raw : Raw) (w : Wheel), s.run = true → s.autoenc = true →
    s.cur = (match w with | .left => Channel.wheelL | .right => .wheelR) →
    ticksOn raw (s.wheel w) = true →
      ∃ t u v, exec (match w with | .left => .rdEncL | .right => .rdEncR) s = .next t ∧
        t.reply = some (s.wheel w).enc ∧
        exec (.conv raw) t = .next u ∧ (u.wheel w).enc = (s.wheel w).enc + 1 ∧
        exec (match w with | .left => .wrEncL 0 | .right => .wrEncR 0) u = .next v ∧
        (v.wheel w).enc = 0

/-- R204: a host that closes the gate (ENCOFF), sets both counters and reopens it (ENCON) starts both
from the pair it gave, whatever events fall in between. -/
def Obligations.ClosedGateSetsThePair : Prop :=
  ∀ (s t : State) (a b : RegVal) (gap₁ gap₂ gap₃ : List Instr),
    (∀ i ∈ gap₁ ++ gap₂ ++ gap₃, i = .tb ∨ ∃ raw, i = .conv raw) →
    execAll (expand .encOff ++ gap₁ ++ [.wrEncL a] ++ gap₂ ++ [.wrEncR b] ++ gap₃ ++
      expand .encOn) s = .next t →
      t.wheelL.enc = a ∧ t.wheelR.enc = b

/-- R207, R96: k EV_TB after its first read, WAITTB n leaves its loop at a read exactly when
k mod 256 ≥ n, so it undercounts by the multiples of 256. -/
def Obligations.TimeWaitIsModulo256 : Prop :=
  ∀ (s t : State) (n k : Nat), 1 ≤ n → n ≤ 255 → execAll (List.replicate k .tb) s = .next t →
    (waitTbDone n (view s .tbTick) (view t .tbTick) = true ↔ n ≤ k % 256)

/-- R205, with the bound the rule's reason needs: when TB_ELAPSED reads the same before and after
TB_TICK is read, and at most 2^24 - 256 EV_TB fall between, it had that value when TB_TICK was read.
The rule's own bound (fewer than 2^24) is too weak by 255 (log entry 10). -/
def Obligations.SafeTimeReading : Prop :=
  ∀ (s t u : State) (before after : List Instr), .reset ∉ before → .reset ∉ after →
    execAll before s = .next t → execAll after t = .next u →
    (before ++ after).count .tb ≤ 2 ^ 24 - 256 →
    view u .tbElapsed = view s .tbElapsed → view t .tbElapsed = view s .tbElapsed

/-- R216, R207: under FAIR_TB, in an infinite run with no RESET, a host wait of n ticks can end after
any point: at some later state a read lets it leave (log entry 11). -/
def Obligations.FairTimeBaseEndsWaits : Prop :=
  ∀ (σ : Nat → State) (txns : Nat → Instr), IsRun σ txns → FairTb txns →
    (∀ k, txns k ≠ .reset) → ∀ k n, 1 ≤ n → n ≤ 255 →
      ∃ m, k ≤ m ∧ waitTbDone n (view (σ k) .tbTick) (view (σ m) .tbTick) = true

/-- R216, R202: under FAIR_CONV, in an infinite run with RUN = 1 from some point on, after any point
every channel is CUR again while RUN = 1, and in flight where the run began with the conversion in
flight in order (R38); so the reads of R202 can see CUR = 5 and then another value (log entry 11). -/
def Obligations.FairConverterReachesEveryChannel : Prop :=
  ∀ (σ : Nat → State) (txns : Nat → Instr), IsRun σ txns → FairConv σ txns →
    (∃ k, ∀ n, k ≤ n → (σ n).run = true) →
      ∀ n (c : Channel), ∃ m, n ≤ m ∧ (σ m).run = true ∧ (σ m).cur = c ∧
        ((σ 0).flightOk → (σ m).inFlight = some c)

/-! ### Host forms -/

/-- R201: the start-up order from a stopped converter leaves both counters at the caller's pair, SWP
clear, and channel 0 in flight with the gate as asked. -/
def Obligations.StartUpOrder : Prop :=
  ∀ (s : State) (a b : RegVal) (gate : Bool), s.run = false →
    execAll (bootSequence a b gate) s = .next
      { s with
        wheelL := { s.wheelL with enc := a }, wheelR := { s.wheelR with enc := b },
        swp := false, autoenc := gate, run := true, cur := .wheelL, inFlight := some .wheelL }

/-- R94: an assembler line with operands in range has the word the table gives, and any other line is
refused. -/
def Obligations.AssemblerLines : Prop :=
  (∀ n : Int, 0 ≤ n → n ≤ 15 →
    assemble (.rd (.number n)) = some (BitVec.ofInt 32 (0x10000000 + n * 2 ^ 24))) ∧
  (∀ n imm : Int, 0 ≤ n → n ≤ 15 → -32768 ≤ imm → imm ≤ 65535 →
    assemble (.wr (.number n) imm) =
      some (BitVec.ofInt 32 (0x20000000 + n * 2 ^ 24 + imm % 2 ^ 16))) ∧
  (∀ r : Reg, assemble (.rd (.name r)) = assemble (.rd (.number (regNumber r).toNat))) ∧
  (∀ (r : Reg) (imm : Int),
    assemble (.wr (.name r) imm) = assemble (.wr (.number (regNumber r).toNat) imm)) ∧
  (∀ raw : Int, 0 ≤ raw → raw ≤ 1023 →
    assemble (.conv raw) = some (BitVec.ofInt 32 (0x80000000 + raw))) ∧
  assemble .tb = some 0x90000000 ∧ assemble .reset = some 0xF0000000 ∧
  (∀ n : Int, (n < 0 ∨ 15 < n) → assemble (.rd (.number n)) = none) ∧
  (∀ n imm : Int, (n < 0 ∨ 15 < n) → assemble (.wr (.number n) imm) = none) ∧
  (∀ (r : RegOperand) (imm : Int), (imm < -32768 ∨ 65535 < imm) → assemble (.wr r imm) = none) ∧
  ∀ raw : Int, (raw < 0 ∨ 1023 < raw) → assemble (.conv raw) = none

/-! ### The time in every step, and host code -/

/-- R101, R102, R160, as a rule of every step: TB_ELAPSED and TB_TICK together count each EV_TB modulo
2^24, are 0 after RESET, and no other transaction changes them. -/
def Obligations.EveryStepCountsTheTime : Prop :=
  ∀ s t : State, step s = .next t → ∃ i, decode s.offered.word s.offered.agent = .txn i ∧
    (i = .reset → timeTotal t = 0) ∧
    (i ≠ .reset → timeTotal t = (timeTotal s + if i = .tb then 1 else 0) % 2 ^ 24)

/-- R205: the safe reading ends at a pass whose two readings of TB_ELAPSED agree, and gives the time
that stood when its TB_TICK was read, whatever falls between its reads but RESET and more than
2^24 - 256 EV_TB within that pass. The rule's own bound is too weak by 255 (log entry 10). -/
def Obligations.TimeReadingIsOneMoment : Prop :=
  ∀ (gaps : List (List Instr)) (s u : State) (h : History), (∀ gap ∈ gaps, .reset ∉ gap) →
    timeReadCode.run gaps [] s = some (h, u) →
      ∃ e t rest m, h = some e :: some t :: some e :: rest ∧
        timeReadLoop gaps s = some ((e, t), u) ∧
        timeReadCode.advance (gaps.take (h.length - 1)) [] s =
          some (some t :: some e :: rest, m) ∧
        (((gaps.drop (h.length - 2)).take 2).flatten.count .tb ≤ 2 ^ 24 - 256 →
          timeTotal m = e.toNat * 256 + t.toNat)

/-- R211, I7: of the pseudo-instructions exactly those that wait on state only events can change are
refused in a hook. A loop that reads TB_TICK twice until the two differ, and one that clears the
switch flag and reads it until it is set, are refused too; the safe reading of R205 is not a wait.
What counts as a wait is the model's reading (log entry 13), as is the loop of POLL 15 (log entry
16). -/
def Obligations.WaitingHooksAreRefused : Prop :=
  (∀ p : Pseudo, pseudoOk p = true → ((pseudoCode p).Waits ↔ waitsOnEvents p = true)) ∧
  (∀ hook : List Pseudo, (∀ p ∈ hook, pseudoOk p = true) →
    (hookAdmitted (hook.map pseudoCode) ↔ pseudoHookAdmitted hook = true)) ∧
  ¬ hookAdmitted [loopCode [.rdTbTick, .rdTbTick] fun h => h.head? != h.getLast?] ∧
  ¬ hookAdmitted [loopCode [.wrStatus 1, .rdStatus] fun h =>
    h.head?.any fun r => r.any fun v => v.getLsbD 0] ∧
  hookAdmitted [timeReadCode]
end

