-- ==== Sys2Proof/Laws/Decode.lean ====
section
/-! SUPPORT. The fields of a word as numbers, the word as its fields, and the fields of the words the
encoder builds, so that no later proof unfolds a bit-field. -/

namespace Sys2Proof

/-! ### The fields of a word as numbers (R81) -/

theorem opField_toNat (w : TxnWord) : (opField w).toNat = w.toNat / 2 ^ 28 := by
  have := w.isLt
  simp only [opField, BitVec.extractLsb'_toNat, Nat.shiftRight_eq_div_pow]
  omega

theorem regField_toNat (w : TxnWord) : (regField w).toNat = w.toNat / 2 ^ 24 % 2 ^ 4 := by
  simp only [regField, BitVec.extractLsb'_toNat, Nat.shiftRight_eq_div_pow]

theorem rsvField_toNat (w : TxnWord) : (rsvField w).toNat = w.toNat / 2 ^ 16 % 2 ^ 8 := by
  simp only [rsvField, BitVec.extractLsb'_toNat, Nat.shiftRight_eq_div_pow]

theorem dataField_toNat (w : TxnWord) : (dataField w).toNat = w.toNat % 2 ^ 16 := by
  simp only [dataField, BitVec.extractLsb'_toNat, Nat.shiftRight_eq_div_pow, Nat.pow_zero,
    Nat.div_one]

theorem rawField_toNat (d : RegVal) : (rawField d).toNat = d.toNat % 2 ^ 10 := by
  simp only [rawField, BitVec.extractLsb'_toNat, Nat.shiftRight_eq_div_pow, Nat.pow_zero,
    Nat.div_one]

theorem rawHighField_toNat (d : RegVal) : (rawHighField d).toNat = d.toNat / 2 ^ 10 := by
  have := d.isLt
  simp only [rawHighField, BitVec.extractLsb'_toNat, Nat.shiftRight_eq_div_pow]
  omega

/-- Two words are the same when their four fields are (R81). -/
theorem word_eq_of_fields {w u : TxnWord} (ho : opField w = opField u) (hr : regField w = regField u)
    (hz : rsvField w = rsvField u) (hd : dataField w = dataField u) : w = u := by
  apply BitVec.eq_of_toNat_eq
  have h1 := congrArg BitVec.toNat ho
  have h2 := congrArg BitVec.toNat hr
  have h3 := congrArg BitVec.toNat hz
  have h4 := congrArg BitVec.toNat hd
  rw [opField_toNat, opField_toNat] at h1
  rw [regField_toNat, regField_toNat] at h2
  rw [rsvField_toNat, rsvField_toNat] at h3
  rw [dataField_toNat, dataField_toNat] at h4
  omega

/-! ### The words the encoder builds -/

/-- Four fields put together, as a number (R81). -/
theorem fields_toNat (o : BitVec 4) (r : RegNum) (z : BitVec 8) (d : RegVal) :
    (o ++ r ++ z ++ d).toNat =
      o.toNat * 2 ^ 28 + r.toNat * 2 ^ 24 + z.toNat * 2 ^ 16 + d.toNat := by
  have := o.isLt
  have := r.isLt
  have := z.isLt
  have := d.isLt
  simp only [BitVec.toNat_append]
  rw [← Nat.shiftLeft_add_eq_or_of_lt (by omega), ← Nat.shiftLeft_add_eq_or_of_lt (by omega),
    ← Nat.shiftLeft_add_eq_or_of_lt (by omega)]
  simp only [Nat.shiftLeft_eq]
  omega

theorem encodeRd_toNat (r : RegNum) : (encodeRd r).toNat = 2 ^ 28 + r.toNat * 2 ^ 24 :=
  (fields_toNat 0x1 r 0 0).trans (by simp)

theorem encodeWr_toNat (r : RegNum) (v : RegVal) :
    (encodeWr r v).toNat = 2 * 2 ^ 28 + r.toNat * 2 ^ 24 + v.toNat :=
  (fields_toNat 0x2 r 0 v).trans (by simp)

theorem encodeConv_toNat (raw : Raw) : (encodeConv raw).toNat = 2 ^ 31 + raw.toNat := by
  have h : encodeConv raw = (0x200000#22 ++ raw) := rfl
  have hr : raw.toNat < 2 ^ 10 := raw.isLt
  rw [h]
  refine (BitVec.toNat_append _ _).trans ?_
  rw [← Nat.shiftLeft_add_eq_or_of_lt hr]
  simp only [Nat.shiftLeft_eq, BitVec.toNat_ofNat]
  omega

/-! ### The decoder's two refusals -/

theorem decode_of_reserved {w : TxnWord} (h : decodeWord w = none) (a : Agent) :
    decode w a = .refuse .reservedEncoding := by simp [decode, h]

theorem decode_of_word {w : TxnWord} {i : Instr} (h : decodeWord w = some i) (a : Agent) :
    decode w a = if i.wellFormed a then .txn i else .refuse .wrongAgent := by simp [decode, h]

/-- Everything the decoder can answer (R86). -/
theorem decode_cases (w : TxnWord) (a : Agent) :
    (decodeWord w = none ∧ decode w a = .refuse .reservedEncoding) ∨
    (∃ i, decodeWord w = some i ∧ i.wellFormed a = true ∧ decode w a = .txn i) ∨
    (∃ i, decodeWord w = some i ∧ i.wellFormed a = false ∧ decode w a = .refuse .wrongAgent) := by
  cases h : decodeWord w with
  | none => exact .inl ⟨rfl, decode_of_reserved h a⟩
  | some i =>
    cases hw : i.wellFormed a
    · exact .inr (.inr ⟨i, rfl, hw, by simp [decode_of_word h, hw]⟩)
    · exact .inr (.inl ⟨i, rfl, hw, by simp [decode_of_word h, hw]⟩)

end Sys2Proof
end

