-- ==== Sys2Proof/Laws/HostCode.lean ====
section
/-! SUPPORT. What host code can do: one transaction of it, a run of it cut into its transactions, and
the read of a register. -/

namespace Sys2Proof.Machine

/-! ### One transaction -/

/-- The value returned is no part of what a register reads. -/
@[simp] theorem view_setReply (s : State) (r : Reg) (o : Option RegVal) :
    view { s with reply := o } r = view s r := by cases r <;> rfl

/-- A RD of a mapped register returns its view (R150). -/
theorem exec_rdOf_regNumber (r : Reg) (s : State) :
    exec (rdOf (regNumber r)) s = .next (s.returnValue (view s r)) := by
  cases r with
  | sample c => cases c <;> rfl
  | enc w => cases w <;> rfl
  | avg w => cases w <;> rfl
  | _ => rfl

/-- A host read returns the register's view and leaves nothing but that value. -/
theorem hostTxn_rdOf_regNumber (r : Reg) (s : State) :
    hostTxn (rdOf (regNumber r)) s =
      some (some (view s r), { s with reply := some (view s r) }) := by
  have h : view s.returnNothing r = view s r := view_setReply s r none
  have w : (rdOf (regNumber r)).wellFormed .host = true := by
    cases r with
    | sample c => cases c <;> rfl
    | enc w => cases w <;> rfl
    | avg w => cases w <;> rfl
    | _ => rfl
  simp only [hostTxn, w, exec_rdOf_regNumber, h]
  rfl

/-- Everything one transaction of host code can do: the gap is taken, then the transaction the code
chooses, and what it returned joins the history. -/
theorem takeNext_cases {c : HostCode} {gap : List Instr} {h h' : History} {s s' : State}
    (e : c.takeNext gap h s = some (h', s')) :
    ∃ i u, c.next h = some i ∧ i.wellFormed .host = true ∧ execAll gap s = .next u ∧
      exec i u.returnNothing = .next s' ∧ h' = s'.reply :: h := by
  unfold HostCode.takeNext at e
  split at e
  · rename_i i u hi hu
    unfold hostTxn at e
    split at e
    · split at e
      · cases e; exact ⟨i, u, hi, ‹_›, hu, ‹_›, rfl⟩
      · cases e
      · cases e
    · cases e
  all_goals cases e

/-- With no step of another agent before it, the code's transaction is the host's alone. -/
theorem takeNext_alone (c : HostCode) (h : History) (s : State) :
    c.takeNext [] h s =
      (c.next h).bind fun i => (hostTxn i s).map fun r => (r.1 :: h, r.2) := by
  unfold HostCode.takeNext
  cases c.next h <;> rfl

/-! ### Runs -/

/-- One value, or its absence, is recorded for each transaction. -/
theorem advance_length {c : HostCode} {gaps : List (List Instr)} {h h' : History} {s s' : State}
    (e : c.advance gaps h s = some (h', s')) : h'.length = h.length + gaps.length := by
  induction gaps generalizing h s with
  | nil => cases e; rfl
  | cons gap gaps ih =>
    obtain ⟨⟨h1, s1⟩, e1, e2⟩ := Option.bind_eq_some_iff.mp e
    obtain ⟨_, _, _, _, _, _, rfl⟩ := takeNext_cases e1
    rw [ih e2]
    simp only [List.length_cons]
    omega

/-- Transactions are taken one group after the other. -/
theorem advance_append (c : HostCode) (gs gs' : List (List Instr)) (h : History) (s : State) :
    c.advance (gs ++ gs') h s = (c.advance gs h s).bind fun r => c.advance gs' r.1 r.2 := by
  induction gs generalizing h s with
  | nil => rfl
  | cons gap gaps ih => simp only [List.cons_append, HostCode.advance, Option.bind_assoc, ih]

/-- A run that ends has taken a transaction for each of the first gaps, and the code ends there. -/
theorem run_cases {c : HostCode} {gaps : List (List Instr)} {h h' : History} {s s' : State}
    (e : c.run gaps h s = some (h', s')) :
    c.next h' = none ∧ h.length ≤ h'.length ∧ h'.length ≤ h.length + gaps.length ∧
      c.advance (gaps.take (h'.length - h.length)) h s = some (h', s') := by
  induction gaps generalizing h s with
  | nil =>
    simp only [HostCode.run] at e
    split at e <;> cases e
    simp_all [HostCode.advance]
  | cons gap gaps ih =>
    simp only [HostCode.run] at e
    split at e
    · cases e; simp_all [HostCode.advance]
    · obtain ⟨⟨h1, s1⟩, e1, e2⟩ := Option.bind_eq_some_iff.mp e
      obtain ⟨a, b, d, f⟩ := ih e2
      obtain ⟨_, _, _, _, _, _, rfl⟩ := takeNext_cases e1
      simp only [List.length_cons] at b d f
      refine ⟨a, by omega, by simp only [List.length_cons]; omega, ?_⟩
      rw [show h'.length - h.length = (h'.length - (h.length + 1)) + 1 by omega,
        List.take_succ_cons]
      simp only [HostCode.advance, e1, Option.bind_some, f]

/-! ### Waits -/

/-- Where the code has ended it takes no further transaction. -/
theorem takeNext_of_ended {c : HostCode} {h : History} (e : c.next h = none) (gap : List Instr)
    (s : State) : c.takeNext gap h s = none := by
  unfold HostCode.takeNext
  rw [e]

/-- Changes of event-written state add up. -/
theorem State.EventVariant.trans {s t u : State} (a : s.EventVariant t) (b : t.EventVariant u) :
    s.EventVariant u :=
  ⟨b.autoenc.trans a.autoenc, b.run.trans a.run, b.swp ∘ a.swp, b.faulted.trans a.faulted,
    b.faults.trans a.faults, b.params.trans a.params⟩

/-- The value returned is no event-written state, and it is compared with none. -/
theorem eventVariant_setReply {s u : State} {o : Option RegVal} :
    State.EventVariant { s with reply := o } u ↔ s.EventVariant u :=
  ⟨fun h => ⟨h.1, h.2, h.3, h.4, h.5, h.6⟩, fun h => ⟨h.1, h.2, h.3, h.4, h.5, h.6⟩⟩

/-- Code that waits never ends on its own. -/
theorem HostCode.WaitsFor.not_ended {c : HostCode} {act : Option Instr} {h h' : History} {s s' : State}
    (w : c.WaitsFor act h s) {n : Nat}
    (e : c.advance (List.replicate n []) h s = some (h', s')) : c.next h' ≠ none := by
  intro hn
  obtain ⟨_, _, e', -⟩ := w.1 (n + 1)
  rw [List.replicate_succ', advance_append, e, Option.bind_some, HostCode.advance,
    takeNext_of_ended hn] at e'
  cases e'

end Sys2Proof.Machine
end

