-- ==== Sys2Proof/Laws/State.lean ====
section
/-! SUPPORT. One lemma per field per update of the state, so that no later proof unfolds a record
update. -/

namespace Sys2Proof.Machine

/-! ### setSample -/

@[simp] theorem State.setSample_cur (s : State) (c : Channel) (raw : Raw) :
    (s.setSample c raw).cur = s.cur := rfl
@[simp] theorem State.setSample_autoenc (s : State) (c : Channel) (raw : Raw) :
    (s.setSample c raw).autoenc = s.autoenc := rfl
@[simp] theorem State.setSample_run (s : State) (c : Channel) (raw : Raw) :
    (s.setSample c raw).run = s.run := rfl
@[simp] theorem State.setSample_inFlight (s : State) (c : Channel) (raw : Raw) :
    (s.setSample c raw).inFlight = s.inFlight := rfl
@[simp] theorem State.setSample_swp (s : State) (c : Channel) (raw : Raw) :
    (s.setSample c raw).swp = s.swp := rfl
@[simp] theorem State.setSample_samples (s : State) (c : Channel) (raw : Raw) :
    (s.setSample c raw).samples = s.samples.put c raw := rfl
@[simp] theorem State.setSample_wheelL (s : State) (c : Channel) (raw : Raw) :
    (s.setSample c raw).wheelL = s.wheelL := rfl
@[simp] theorem State.setSample_wheelR (s : State) (c : Channel) (raw : Raw) :
    (s.setSample c raw).wheelR = s.wheelR := rfl
@[simp] theorem State.setSample_tbTick (s : State) (c : Channel) (raw : Raw) :
    (s.setSample c raw).tbTick = s.tbTick := rfl
@[simp] theorem State.setSample_tbElapsed (s : State) (c : Channel) (raw : Raw) :
    (s.setSample c raw).tbElapsed = s.tbElapsed := rfl
@[simp] theorem State.setSample_faulted (s : State) (c : Channel) (raw : Raw) :
    (s.setSample c raw).faulted = s.faulted := rfl
@[simp] theorem State.setSample_faults (s : State) (c : Channel) (raw : Raw) :
    (s.setSample c raw).faults = s.faults := rfl
@[simp] theorem State.setSample_pulses (s : State) (c : Channel) (raw : Raw) :
    (s.setSample c raw).pulses = s.pulses := rfl
@[simp] theorem State.setSample_reply (s : State) (c : Channel) (raw : Raw) :
    (s.setSample c raw).reply = s.reply := rfl
@[simp] theorem State.setSample_stepIndex (s : State) (c : Channel) (raw : Raw) :
    (s.setSample c raw).stepIndex = s.stepIndex := rfl
@[simp] theorem State.setSample_schedule (s : State) (c : Channel) (raw : Raw) :
    (s.setSample c raw).schedule = s.schedule := rfl
@[simp] theorem State.setSample_params (s : State) (c : Channel) (raw : Raw) :
    (s.setSample c raw).params = s.params := rfl

/-! ### startConversion -/

@[simp] theorem State.startConversion_cur (s : State) (c : Channel) :
    (s.startConversion c).cur = s.cur := rfl
@[simp] theorem State.startConversion_autoenc (s : State) (c : Channel) :
    (s.startConversion c).autoenc = s.autoenc := rfl
@[simp] theorem State.startConversion_run (s : State) (c : Channel) :
    (s.startConversion c).run = s.run := rfl
@[simp] theorem State.startConversion_inFlight (s : State) (c : Channel) :
    (s.startConversion c).inFlight = some c := rfl
@[simp] theorem State.startConversion_swp (s : State) (c : Channel) :
    (s.startConversion c).swp = s.swp := rfl
@[simp] theorem State.startConversion_samples (s : State) (c : Channel) :
    (s.startConversion c).samples = s.samples := rfl
@[simp] theorem State.startConversion_wheelL (s : State) (c : Channel) :
    (s.startConversion c).wheelL = s.wheelL := rfl
@[simp] theorem State.startConversion_wheelR (s : State) (c : Channel) :
    (s.startConversion c).wheelR = s.wheelR := rfl
@[simp] theorem State.startConversion_tbTick (s : State) (c : Channel) :
    (s.startConversion c).tbTick = s.tbTick := rfl
@[simp] theorem State.startConversion_tbElapsed (s : State) (c : Channel) :
    (s.startConversion c).tbElapsed = s.tbElapsed := rfl
@[simp] theorem State.startConversion_faulted (s : State) (c : Channel) :
    (s.startConversion c).faulted = s.faulted := rfl
@[simp] theorem State.startConversion_faults (s : State) (c : Channel) :
    (s.startConversion c).faults = s.faults := rfl
@[simp] theorem State.startConversion_pulses (s : State) (c : Channel) :
    (s.startConversion c).pulses = s.pulses := rfl
@[simp] theorem State.startConversion_reply (s : State) (c : Channel) :
    (s.startConversion c).reply = s.reply := rfl
@[simp] theorem State.startConversion_stepIndex (s : State) (c : Channel) :
    (s.startConversion c).stepIndex = s.stepIndex := rfl
@[simp] theorem State.startConversion_schedule (s : State) (c : Channel) :
    (s.startConversion c).schedule = s.schedule := rfl
@[simp] theorem State.startConversion_params (s : State) (c : Channel) :
    (s.startConversion c).params = s.params := rfl

/-! ### abandonConversion -/

@[simp] theorem State.abandonConversion_cur (s : State) : (s.abandonConversion).cur = s.cur := rfl
@[simp] theorem State.abandonConversion_autoenc (s : State) :
    (s.abandonConversion).autoenc = s.autoenc := rfl
@[simp] theorem State.abandonConversion_run (s : State) : (s.abandonConversion).run = s.run := rfl
@[simp] theorem State.abandonConversion_inFlight (s : State) :
    (s.abandonConversion).inFlight = none := rfl
@[simp] theorem State.abandonConversion_swp (s : State) : (s.abandonConversion).swp = s.swp := rfl
@[simp] theorem State.abandonConversion_samples (s : State) :
    (s.abandonConversion).samples = s.samples := rfl
@[simp] theorem State.abandonConversion_wheelL (s : State) :
    (s.abandonConversion).wheelL = s.wheelL := rfl
@[simp] theorem State.abandonConversion_wheelR (s : State) :
    (s.abandonConversion).wheelR = s.wheelR := rfl
@[simp] theorem State.abandonConversion_tbTick (s : State) :
    (s.abandonConversion).tbTick = s.tbTick := rfl
@[simp] theorem State.abandonConversion_tbElapsed (s : State) :
    (s.abandonConversion).tbElapsed = s.tbElapsed := rfl
@[simp] theorem State.abandonConversion_faulted (s : State) :
    (s.abandonConversion).faulted = s.faulted := rfl
@[simp] theorem State.abandonConversion_faults (s : State) :
    (s.abandonConversion).faults = s.faults := rfl
@[simp] theorem State.abandonConversion_pulses (s : State) :
    (s.abandonConversion).pulses = s.pulses := rfl
@[simp] theorem State.abandonConversion_reply (s : State) :
    (s.abandonConversion).reply = s.reply := rfl
@[simp] theorem State.abandonConversion_stepIndex (s : State) :
    (s.abandonConversion).stepIndex = s.stepIndex := rfl
@[simp] theorem State.abandonConversion_schedule (s : State) :
    (s.abandonConversion).schedule = s.schedule := rfl
@[simp] theorem State.abandonConversion_params (s : State) :
    (s.abandonConversion).params = s.params := rfl

/-! ### raiseFault -/

@[simp] theorem State.raiseFault_cur (s : State) (f : Fault) : (s.raiseFault f).cur = s.cur := rfl
@[simp] theorem State.raiseFault_autoenc (s : State) (f : Fault) :
    (s.raiseFault f).autoenc = s.autoenc := rfl
@[simp] theorem State.raiseFault_run (s : State) (f : Fault) : (s.raiseFault f).run = s.run := rfl
@[simp] theorem State.raiseFault_inFlight (s : State) (f : Fault) :
    (s.raiseFault f).inFlight = s.inFlight := rfl
@[simp] theorem State.raiseFault_swp (s : State) (f : Fault) : (s.raiseFault f).swp = s.swp := rfl
@[simp] theorem State.raiseFault_samples (s : State) (f : Fault) :
    (s.raiseFault f).samples = s.samples := rfl
@[simp] theorem State.raiseFault_wheelL (s : State) (f : Fault) :
    (s.raiseFault f).wheelL = s.wheelL := rfl
@[simp] theorem State.raiseFault_wheelR (s : State) (f : Fault) :
    (s.raiseFault f).wheelR = s.wheelR := rfl
@[simp] theorem State.raiseFault_tbTick (s : State) (f : Fault) :
    (s.raiseFault f).tbTick = s.tbTick := rfl
@[simp] theorem State.raiseFault_tbElapsed (s : State) (f : Fault) :
    (s.raiseFault f).tbElapsed = s.tbElapsed := rfl
@[simp] theorem State.raiseFault_faulted (s : State) (f : Fault) :
    (s.raiseFault f).faulted = true := rfl
@[simp] theorem State.raiseFault_faults (s : State) (f : Fault) :
    (s.raiseFault f).faults = s.faults ++ [f] := rfl
@[simp] theorem State.raiseFault_pulses (s : State) (f : Fault) :
    (s.raiseFault f).pulses = s.pulses := rfl
@[simp] theorem State.raiseFault_reply (s : State) (f : Fault) :
    (s.raiseFault f).reply = s.reply := rfl
@[simp] theorem State.raiseFault_stepIndex (s : State) (f : Fault) :
    (s.raiseFault f).stepIndex = s.stepIndex := rfl
@[simp] theorem State.raiseFault_schedule (s : State) (f : Fault) :
    (s.raiseFault f).schedule = s.schedule := rfl
@[simp] theorem State.raiseFault_params (s : State) (f : Fault) :
    (s.raiseFault f).params = s.params := rfl

/-! ### pulse -/

@[simp] theorem State.pulse_cur (s : State) (o : EventOut) : (s.pulse o).cur = s.cur := rfl
@[simp] theorem State.pulse_autoenc (s : State) (o : EventOut) :
    (s.pulse o).autoenc = s.autoenc := rfl
@[simp] theorem State.pulse_run (s : State) (o : EventOut) : (s.pulse o).run = s.run := rfl
@[simp] theorem State.pulse_inFlight (s : State) (o : EventOut) :
    (s.pulse o).inFlight = s.inFlight := rfl
@[simp] theorem State.pulse_swp (s : State) (o : EventOut) : (s.pulse o).swp = s.swp := rfl
@[simp] theorem State.pulse_samples (s : State) (o : EventOut) :
    (s.pulse o).samples = s.samples := rfl
@[simp] theorem State.pulse_wheelL (s : State) (o : EventOut) :
    (s.pulse o).wheelL = s.wheelL := rfl
@[simp] theorem State.pulse_wheelR (s : State) (o : EventOut) :
    (s.pulse o).wheelR = s.wheelR := rfl
@[simp] theorem State.pulse_tbTick (s : State) (o : EventOut) :
    (s.pulse o).tbTick = s.tbTick := rfl
@[simp] theorem State.pulse_tbElapsed (s : State) (o : EventOut) :
    (s.pulse o).tbElapsed = s.tbElapsed := rfl
@[simp] theorem State.pulse_faulted (s : State) (o : EventOut) :
    (s.pulse o).faulted = s.faulted := rfl
@[simp] theorem State.pulse_faults (s : State) (o : EventOut) :
    (s.pulse o).faults = s.faults := rfl
@[simp] theorem State.pulse_pulses (s : State) (o : EventOut) :
    (s.pulse o).pulses = s.pulses ++ [⟨o, s.stepIndex⟩] := rfl
@[simp] theorem State.pulse_reply (s : State) (o : EventOut) : (s.pulse o).reply = s.reply := rfl
@[simp] theorem State.pulse_stepIndex (s : State) (o : EventOut) :
    (s.pulse o).stepIndex = s.stepIndex := rfl
@[simp] theorem State.pulse_schedule (s : State) (o : EventOut) :
    (s.pulse o).schedule = s.schedule := rfl
@[simp] theorem State.pulse_params (s : State) (o : EventOut) :
    (s.pulse o).params = s.params := rfl

/-! ### returnValue -/

@[simp] theorem State.returnValue_cur (s : State) (v : RegVal) :
    (s.returnValue v).cur = s.cur := rfl
@[simp] theorem State.returnValue_autoenc (s : State) (v : RegVal) :
    (s.returnValue v).autoenc = s.autoenc := rfl
@[simp] theorem State.returnValue_run (s : State) (v : RegVal) :
    (s.returnValue v).run = s.run := rfl
@[simp] theorem State.returnValue_inFlight (s : State) (v : RegVal) :
    (s.returnValue v).inFlight = s.inFlight := rfl
@[simp] theorem State.returnValue_swp (s : State) (v : RegVal) :
    (s.returnValue v).swp = s.swp := rfl
@[simp] theorem State.returnValue_samples (s : State) (v : RegVal) :
    (s.returnValue v).samples = s.samples := rfl
@[simp] theorem State.returnValue_wheelL (s : State) (v : RegVal) :
    (s.returnValue v).wheelL = s.wheelL := rfl
@[simp] theorem State.returnValue_wheelR (s : State) (v : RegVal) :
    (s.returnValue v).wheelR = s.wheelR := rfl
@[simp] theorem State.returnValue_tbTick (s : State) (v : RegVal) :
    (s.returnValue v).tbTick = s.tbTick := rfl
@[simp] theorem State.returnValue_tbElapsed (s : State) (v : RegVal) :
    (s.returnValue v).tbElapsed = s.tbElapsed := rfl
@[simp] theorem State.returnValue_faulted (s : State) (v : RegVal) :
    (s.returnValue v).faulted = s.faulted := rfl
@[simp] theorem State.returnValue_faults (s : State) (v : RegVal) :
    (s.returnValue v).faults = s.faults := rfl
@[simp] theorem State.returnValue_pulses (s : State) (v : RegVal) :
    (s.returnValue v).pulses = s.pulses := rfl
@[simp] theorem State.returnValue_reply (s : State) (v : RegVal) :
    (s.returnValue v).reply = some v := rfl
@[simp] theorem State.returnValue_stepIndex (s : State) (v : RegVal) :
    (s.returnValue v).stepIndex = s.stepIndex := rfl
@[simp] theorem State.returnValue_schedule (s : State) (v : RegVal) :
    (s.returnValue v).schedule = s.schedule := rfl
@[simp] theorem State.returnValue_params (s : State) (v : RegVal) :
    (s.returnValue v).params = s.params := rfl

/-! ### returnNothing -/

@[simp] theorem State.returnNothing_cur (s : State) : (s.returnNothing).cur = s.cur := rfl
@[simp] theorem State.returnNothing_autoenc (s : State) :
    (s.returnNothing).autoenc = s.autoenc := rfl
@[simp] theorem State.returnNothing_run (s : State) : (s.returnNothing).run = s.run := rfl
@[simp] theorem State.returnNothing_inFlight (s : State) :
    (s.returnNothing).inFlight = s.inFlight := rfl
@[simp] theorem State.returnNothing_swp (s : State) : (s.returnNothing).swp = s.swp := rfl
@[simp] theorem State.returnNothing_samples (s : State) :
    (s.returnNothing).samples = s.samples := rfl
@[simp] theorem State.returnNothing_wheelL (s : State) : (s.returnNothing).wheelL = s.wheelL := rfl
@[simp] theorem State.returnNothing_wheelR (s : State) : (s.returnNothing).wheelR = s.wheelR := rfl
@[simp] theorem State.returnNothing_tbTick (s : State) : (s.returnNothing).tbTick = s.tbTick := rfl
@[simp] theorem State.returnNothing_tbElapsed (s : State) :
    (s.returnNothing).tbElapsed = s.tbElapsed := rfl
@[simp] theorem State.returnNothing_faulted (s : State) :
    (s.returnNothing).faulted = s.faulted := rfl
@[simp] theorem State.returnNothing_faults (s : State) : (s.returnNothing).faults = s.faults := rfl
@[simp] theorem State.returnNothing_pulses (s : State) : (s.returnNothing).pulses = s.pulses := rfl
@[simp] theorem State.returnNothing_reply (s : State) : (s.returnNothing).reply = none := rfl
@[simp] theorem State.returnNothing_stepIndex (s : State) :
    (s.returnNothing).stepIndex = s.stepIndex := rfl
@[simp] theorem State.returnNothing_schedule (s : State) :
    (s.returnNothing).schedule = s.schedule := rfl
@[simp] theorem State.returnNothing_params (s : State) : (s.returnNothing).params = s.params := rfl

/-! ### resetRegs -/

@[simp] theorem State.resetRegs_cur (s : State) : (s.resetRegs).cur = .wheelL := rfl
@[simp] theorem State.resetRegs_autoenc (s : State) : (s.resetRegs).autoenc = false := rfl
@[simp] theorem State.resetRegs_run (s : State) : (s.resetRegs).run = false := rfl
@[simp] theorem State.resetRegs_inFlight (s : State) : (s.resetRegs).inFlight = none := rfl
@[simp] theorem State.resetRegs_swp (s : State) : (s.resetRegs).swp = false := rfl
@[simp] theorem State.resetRegs_samples (s : State) :
    (s.resetRegs).samples = ⟨0, 0, 0, 0, 0, 0⟩ := rfl
@[simp] theorem State.resetRegs_wheelL (s : State) :
    (s.resetRegs).wheelL = ⟨s.params.avgResetL, s.params.signResetL, 0⟩ := rfl
@[simp] theorem State.resetRegs_wheelR (s : State) :
    (s.resetRegs).wheelR = ⟨s.params.avgResetR, s.params.signResetR, 0⟩ := rfl
@[simp] theorem State.resetRegs_tbTick (s : State) : (s.resetRegs).tbTick = 0 := rfl
@[simp] theorem State.resetRegs_tbElapsed (s : State) : (s.resetRegs).tbElapsed = 0 := rfl
@[simp] theorem State.resetRegs_faulted (s : State) : (s.resetRegs).faulted = s.faulted := rfl
@[simp] theorem State.resetRegs_faults (s : State) : (s.resetRegs).faults = s.faults := rfl
@[simp] theorem State.resetRegs_pulses (s : State) : (s.resetRegs).pulses = s.pulses := rfl
@[simp] theorem State.resetRegs_reply (s : State) : (s.resetRegs).reply = s.reply := rfl
@[simp] theorem State.resetRegs_stepIndex (s : State) :
    (s.resetRegs).stepIndex = s.stepIndex := rfl
@[simp] theorem State.resetRegs_schedule (s : State) : (s.resetRegs).schedule = s.schedule := rfl
@[simp] theorem State.resetRegs_params (s : State) : (s.resetRegs).params = s.params := rfl

/-! ### beginStep -/

@[simp] theorem State.beginStep_cur (s : State) : (s.beginStep).cur = s.cur := rfl
@[simp] theorem State.beginStep_autoenc (s : State) : (s.beginStep).autoenc = s.autoenc := rfl
@[simp] theorem State.beginStep_run (s : State) : (s.beginStep).run = s.run := rfl
@[simp] theorem State.beginStep_inFlight (s : State) : (s.beginStep).inFlight = s.inFlight := rfl
@[simp] theorem State.beginStep_swp (s : State) : (s.beginStep).swp = s.swp := rfl
@[simp] theorem State.beginStep_samples (s : State) : (s.beginStep).samples = s.samples := rfl
@[simp] theorem State.beginStep_wheelL (s : State) : (s.beginStep).wheelL = s.wheelL := rfl
@[simp] theorem State.beginStep_wheelR (s : State) : (s.beginStep).wheelR = s.wheelR := rfl
@[simp] theorem State.beginStep_tbTick (s : State) : (s.beginStep).tbTick = s.tbTick := rfl
@[simp] theorem State.beginStep_tbElapsed (s : State) :
    (s.beginStep).tbElapsed = s.tbElapsed := rfl
@[simp] theorem State.beginStep_faulted (s : State) : (s.beginStep).faulted = s.faulted := rfl
@[simp] theorem State.beginStep_faults (s : State) : (s.beginStep).faults = s.faults := rfl
@[simp] theorem State.beginStep_pulses (s : State) : (s.beginStep).pulses = s.pulses := rfl
@[simp] theorem State.beginStep_reply (s : State) : (s.beginStep).reply = none := rfl
@[simp] theorem State.beginStep_stepIndex (s : State) :
    (s.beginStep).stepIndex = s.stepIndex + 1 := rfl
@[simp] theorem State.beginStep_schedule (s : State) :
    (s.beginStep).schedule = s.schedule.tail := rfl
@[simp] theorem State.beginStep_params (s : State) : (s.beginStep).params = s.params := rfl

/-! ### tickTimeBase -/

@[simp] theorem State.tickTimeBase_cur (s : State) : (s.tickTimeBase).cur = s.cur := rfl
@[simp] theorem State.tickTimeBase_autoenc (s : State) :
    (s.tickTimeBase).autoenc = s.autoenc := rfl
@[simp] theorem State.tickTimeBase_run (s : State) : (s.tickTimeBase).run = s.run := rfl
@[simp] theorem State.tickTimeBase_inFlight (s : State) :
    (s.tickTimeBase).inFlight = s.inFlight := rfl
@[simp] theorem State.tickTimeBase_swp (s : State) : (s.tickTimeBase).swp = s.swp := rfl
@[simp] theorem State.tickTimeBase_samples (s : State) :
    (s.tickTimeBase).samples = s.samples := rfl
@[simp] theorem State.tickTimeBase_wheelL (s : State) : (s.tickTimeBase).wheelL = s.wheelL := rfl
@[simp] theorem State.tickTimeBase_wheelR (s : State) : (s.tickTimeBase).wheelR = s.wheelR := rfl
@[simp] theorem State.tickTimeBase_faulted (s : State) :
    (s.tickTimeBase).faulted = s.faulted := rfl
@[simp] theorem State.tickTimeBase_faults (s : State) : (s.tickTimeBase).faults = s.faults := rfl
@[simp] theorem State.tickTimeBase_pulses (s : State) : (s.tickTimeBase).pulses = s.pulses := rfl
@[simp] theorem State.tickTimeBase_reply (s : State) : (s.tickTimeBase).reply = s.reply := rfl
@[simp] theorem State.tickTimeBase_stepIndex (s : State) :
    (s.tickTimeBase).stepIndex = s.stepIndex := rfl
@[simp] theorem State.tickTimeBase_schedule (s : State) :
    (s.tickTimeBase).schedule = s.schedule := rfl
@[simp] theorem State.tickTimeBase_params (s : State) : (s.tickTimeBase).params = s.params := rfl

/-! ### advance -/

@[simp] theorem State.advance_cur (s : State) (c : Channel) :
    (s.advance c).cur = nextChannel c := rfl
@[simp] theorem State.advance_autoenc (s : State) (c : Channel) :
    (s.advance c).autoenc = s.autoenc := rfl
@[simp] theorem State.advance_run (s : State) (c : Channel) : (s.advance c).run = s.run := rfl
@[simp] theorem State.advance_inFlight (s : State) (c : Channel) :
    (s.advance c).inFlight = some (nextChannel c) := rfl
@[simp] theorem State.advance_swp (s : State) (c : Channel) : (s.advance c).swp = s.swp := rfl
@[simp] theorem State.advance_samples (s : State) (c : Channel) :
    (s.advance c).samples = s.samples := rfl
@[simp] theorem State.advance_wheelL (s : State) (c : Channel) :
    (s.advance c).wheelL = s.wheelL := rfl
@[simp] theorem State.advance_wheelR (s : State) (c : Channel) :
    (s.advance c).wheelR = s.wheelR := rfl
@[simp] theorem State.advance_tbTick (s : State) (c : Channel) :
    (s.advance c).tbTick = s.tbTick := rfl
@[simp] theorem State.advance_tbElapsed (s : State) (c : Channel) :
    (s.advance c).tbElapsed = s.tbElapsed := rfl
@[simp] theorem State.advance_faulted (s : State) (c : Channel) :
    (s.advance c).faulted = s.faulted := rfl
@[simp] theorem State.advance_faults (s : State) (c : Channel) :
    (s.advance c).faults = s.faults := rfl
@[simp] theorem State.advance_pulses (s : State) (c : Channel) :
    (s.advance c).pulses = s.pulses := rfl
@[simp] theorem State.advance_reply (s : State) (c : Channel) :
    (s.advance c).reply = s.reply := rfl
@[simp] theorem State.advance_stepIndex (s : State) (c : Channel) :
    (s.advance c).stepIndex = s.stepIndex := rfl
@[simp] theorem State.advance_schedule (s : State) (c : Channel) :
    (s.advance c).schedule = s.schedule := rfl
@[simp] theorem State.advance_params (s : State) (c : Channel) :
    (s.advance c).params = s.params := rfl

/-! ### writeStatus -/

@[simp] theorem State.writeStatus_cur (s : State) (v : RegVal) :
    (s.writeStatus v).cur = s.cur := rfl
@[simp] theorem State.writeStatus_autoenc (s : State) (v : RegVal) :
    (s.writeStatus v).autoenc = s.autoenc := rfl
@[simp] theorem State.writeStatus_run (s : State) (v : RegVal) :
    (s.writeStatus v).run = s.run := rfl
@[simp] theorem State.writeStatus_inFlight (s : State) (v : RegVal) :
    (s.writeStatus v).inFlight = s.inFlight := rfl
@[simp] theorem State.writeStatus_swp (s : State) (v : RegVal) :
    (s.writeStatus v).swp = swpAfterWrite v s.swp := rfl
@[simp] theorem State.writeStatus_samples (s : State) (v : RegVal) :
    (s.writeStatus v).samples = s.samples := rfl
@[simp] theorem State.writeStatus_wheelL (s : State) (v : RegVal) :
    (s.writeStatus v).wheelL = s.wheelL := rfl
@[simp] theorem State.writeStatus_wheelR (s : State) (v : RegVal) :
    (s.writeStatus v).wheelR = s.wheelR := rfl
@[simp] theorem State.writeStatus_tbTick (s : State) (v : RegVal) :
    (s.writeStatus v).tbTick = s.tbTick := rfl
@[simp] theorem State.writeStatus_tbElapsed (s : State) (v : RegVal) :
    (s.writeStatus v).tbElapsed = s.tbElapsed := rfl
@[simp] theorem State.writeStatus_faulted (s : State) (v : RegVal) :
    (s.writeStatus v).faulted = s.faulted := rfl
@[simp] theorem State.writeStatus_faults (s : State) (v : RegVal) :
    (s.writeStatus v).faults = s.faults := rfl
@[simp] theorem State.writeStatus_pulses (s : State) (v : RegVal) :
    (s.writeStatus v).pulses = s.pulses := rfl
@[simp] theorem State.writeStatus_reply (s : State) (v : RegVal) :
    (s.writeStatus v).reply = s.reply := rfl
@[simp] theorem State.writeStatus_stepIndex (s : State) (v : RegVal) :
    (s.writeStatus v).stepIndex = s.stepIndex := rfl
@[simp] theorem State.writeStatus_schedule (s : State) (v : RegVal) :
    (s.writeStatus v).schedule = s.schedule := rfl
@[simp] theorem State.writeStatus_params (s : State) (v : RegVal) :
    (s.writeStatus v).params = s.params := rfl

/-! ### setWheel -/

@[simp] theorem State.setWheel_cur (s : State) (w : Wheel) (x : WheelState) :
    (s.setWheel w x).cur = s.cur := by cases w <;> rfl
@[simp] theorem State.setWheel_autoenc (s : State) (w : Wheel) (x : WheelState) :
    (s.setWheel w x).autoenc = s.autoenc := by cases w <;> rfl
@[simp] theorem State.setWheel_run (s : State) (w : Wheel) (x : WheelState) :
    (s.setWheel w x).run = s.run := by cases w <;> rfl
@[simp] theorem State.setWheel_inFlight (s : State) (w : Wheel) (x : WheelState) :
    (s.setWheel w x).inFlight = s.inFlight := by cases w <;> rfl
@[simp] theorem State.setWheel_swp (s : State) (w : Wheel) (x : WheelState) :
    (s.setWheel w x).swp = s.swp := by cases w <;> rfl
@[simp] theorem State.setWheel_samples (s : State) (w : Wheel) (x : WheelState) :
    (s.setWheel w x).samples = s.samples := by cases w <;> rfl
@[simp] theorem State.setWheel_tbTick (s : State) (w : Wheel) (x : WheelState) :
    (s.setWheel w x).tbTick = s.tbTick := by cases w <;> rfl
@[simp] theorem State.setWheel_tbElapsed (s : State) (w : Wheel) (x : WheelState) :
    (s.setWheel w x).tbElapsed = s.tbElapsed := by cases w <;> rfl
@[simp] theorem State.setWheel_faulted (s : State) (w : Wheel) (x : WheelState) :
    (s.setWheel w x).faulted = s.faulted := by cases w <;> rfl
@[simp] theorem State.setWheel_faults (s : State) (w : Wheel) (x : WheelState) :
    (s.setWheel w x).faults = s.faults := by cases w <;> rfl
@[simp] theorem State.setWheel_pulses (s : State) (w : Wheel) (x : WheelState) :
    (s.setWheel w x).pulses = s.pulses := by cases w <;> rfl
@[simp] theorem State.setWheel_reply (s : State) (w : Wheel) (x : WheelState) :
    (s.setWheel w x).reply = s.reply := by cases w <;> rfl
@[simp] theorem State.setWheel_stepIndex (s : State) (w : Wheel) (x : WheelState) :
    (s.setWheel w x).stepIndex = s.stepIndex := by cases w <;> rfl
@[simp] theorem State.setWheel_schedule (s : State) (w : Wheel) (x : WheelState) :
    (s.setWheel w x).schedule = s.schedule := by cases w <;> rfl
@[simp] theorem State.setWheel_params (s : State) (w : Wheel) (x : WheelState) :
    (s.setWheel w x).params = s.params := by cases w <;> rfl

/-! ### setEnc -/

@[simp] theorem State.setEnc_cur (s : State) (w : Wheel) (v : RegVal) :
    (s.setEnc w v).cur = s.cur := by cases w <;> rfl
@[simp] theorem State.setEnc_autoenc (s : State) (w : Wheel) (v : RegVal) :
    (s.setEnc w v).autoenc = s.autoenc := by cases w <;> rfl
@[simp] theorem State.setEnc_run (s : State) (w : Wheel) (v : RegVal) :
    (s.setEnc w v).run = s.run := by cases w <;> rfl
@[simp] theorem State.setEnc_inFlight (s : State) (w : Wheel) (v : RegVal) :
    (s.setEnc w v).inFlight = s.inFlight := by cases w <;> rfl
@[simp] theorem State.setEnc_swp (s : State) (w : Wheel) (v : RegVal) :
    (s.setEnc w v).swp = s.swp := by cases w <;> rfl
@[simp] theorem State.setEnc_samples (s : State) (w : Wheel) (v : RegVal) :
    (s.setEnc w v).samples = s.samples := by cases w <;> rfl
@[simp] theorem State.setEnc_tbTick (s : State) (w : Wheel) (v : RegVal) :
    (s.setEnc w v).tbTick = s.tbTick := by cases w <;> rfl
@[simp] theorem State.setEnc_tbElapsed (s : State) (w : Wheel) (v : RegVal) :
    (s.setEnc w v).tbElapsed = s.tbElapsed := by cases w <;> rfl
@[simp] theorem State.setEnc_faulted (s : State) (w : Wheel) (v : RegVal) :
    (s.setEnc w v).faulted = s.faulted := by cases w <;> rfl
@[simp] theorem State.setEnc_faults (s : State) (w : Wheel) (v : RegVal) :
    (s.setEnc w v).faults = s.faults := by cases w <;> rfl
@[simp] theorem State.setEnc_pulses (s : State) (w : Wheel) (v : RegVal) :
    (s.setEnc w v).pulses = s.pulses := by cases w <;> rfl
@[simp] theorem State.setEnc_reply (s : State) (w : Wheel) (v : RegVal) :
    (s.setEnc w v).reply = s.reply := by cases w <;> rfl
@[simp] theorem State.setEnc_stepIndex (s : State) (w : Wheel) (v : RegVal) :
    (s.setEnc w v).stepIndex = s.stepIndex := by cases w <;> rfl
@[simp] theorem State.setEnc_schedule (s : State) (w : Wheel) (v : RegVal) :
    (s.setEnc w v).schedule = s.schedule := by cases w <;> rfl
@[simp] theorem State.setEnc_params (s : State) (w : Wheel) (v : RegVal) :
    (s.setEnc w v).params = s.params := by cases w <;> rfl

/-! ### writeCtrl -/

@[simp] theorem State.writeCtrl_autoenc (s : State) (v : RegVal) :
    (s.writeCtrl v).autoenc = autoencBit v := by
  unfold State.writeCtrl; repeat (first | rfl | split)
@[simp] theorem State.writeCtrl_run (s : State) (v : RegVal) :
    (s.writeCtrl v).run = runBit v := by
  unfold State.writeCtrl; repeat (first | rfl | split)
@[simp] theorem State.writeCtrl_swp (s : State) (v : RegVal) :
    (s.writeCtrl v).swp = s.swp := by
  unfold State.writeCtrl; repeat (first | rfl | split)
@[simp] theorem State.writeCtrl_samples (s : State) (v : RegVal) :
    (s.writeCtrl v).samples = s.samples := by
  unfold State.writeCtrl; repeat (first | rfl | split)
@[simp] theorem State.writeCtrl_wheelL (s : State) (v : RegVal) :
    (s.writeCtrl v).wheelL = s.wheelL := by
  unfold State.writeCtrl; repeat (first | rfl | split)
@[simp] theorem State.writeCtrl_wheelR (s : State) (v : RegVal) :
    (s.writeCtrl v).wheelR = s.wheelR := by
  unfold State.writeCtrl; repeat (first | rfl | split)
@[simp] theorem State.writeCtrl_tbTick (s : State) (v : RegVal) :
    (s.writeCtrl v).tbTick = s.tbTick := by
  unfold State.writeCtrl; repeat (first | rfl | split)
@[simp] theorem State.writeCtrl_tbElapsed (s : State) (v : RegVal) :
    (s.writeCtrl v).tbElapsed = s.tbElapsed := by
  unfold State.writeCtrl; repeat (first | rfl | split)
@[simp] theorem State.writeCtrl_faulted (s : State) (v : RegVal) :
    (s.writeCtrl v).faulted = s.faulted := by
  unfold State.writeCtrl; repeat (first | rfl | split)
@[simp] theorem State.writeCtrl_faults (s : State) (v : RegVal) :
    (s.writeCtrl v).faults = s.faults := by
  unfold State.writeCtrl; repeat (first | rfl | split)
@[simp] theorem State.writeCtrl_pulses (s : State) (v : RegVal) :
    (s.writeCtrl v).pulses = s.pulses := by
  unfold State.writeCtrl; repeat (first | rfl | split)
@[simp] theorem State.writeCtrl_reply (s : State) (v : RegVal) :
    (s.writeCtrl v).reply = s.reply := by
  unfold State.writeCtrl; repeat (first | rfl | split)
@[simp] theorem State.writeCtrl_stepIndex (s : State) (v : RegVal) :
    (s.writeCtrl v).stepIndex = s.stepIndex := by
  unfold State.writeCtrl; repeat (first | rfl | split)
@[simp] theorem State.writeCtrl_schedule (s : State) (v : RegVal) :
    (s.writeCtrl v).schedule = s.schedule := by
  unfold State.writeCtrl; repeat (first | rfl | split)
@[simp] theorem State.writeCtrl_params (s : State) (v : RegVal) :
    (s.writeCtrl v).params = s.params := by
  unfold State.writeCtrl; repeat (first | rfl | split)

/-! ### testSwitch -/

@[simp] theorem State.testSwitch_cur (s : State) (c : Channel) (raw : Raw) :
    (s.testSwitch c raw).cur = s.cur := by
  unfold State.testSwitch; split <;> rfl
@[simp] theorem State.testSwitch_autoenc (s : State) (c : Channel) (raw : Raw) :
    (s.testSwitch c raw).autoenc = s.autoenc := by
  unfold State.testSwitch; split <;> rfl
@[simp] theorem State.testSwitch_run (s : State) (c : Channel) (raw : Raw) :
    (s.testSwitch c raw).run = s.run := by
  unfold State.testSwitch; split <;> rfl
@[simp] theorem State.testSwitch_inFlight (s : State) (c : Channel) (raw : Raw) :
    (s.testSwitch c raw).inFlight = s.inFlight := by
  unfold State.testSwitch; split <;> rfl
@[simp] theorem State.testSwitch_samples (s : State) (c : Channel) (raw : Raw) :
    (s.testSwitch c raw).samples = s.samples := by
  unfold State.testSwitch; split <;> rfl
@[simp] theorem State.testSwitch_wheelL (s : State) (c : Channel) (raw : Raw) :
    (s.testSwitch c raw).wheelL = s.wheelL := by
  unfold State.testSwitch; split <;> rfl
@[simp] theorem State.testSwitch_wheelR (s : State) (c : Channel) (raw : Raw) :
    (s.testSwitch c raw).wheelR = s.wheelR := by
  unfold State.testSwitch; split <;> rfl
@[simp] theorem State.testSwitch_tbTick (s : State) (c : Channel) (raw : Raw) :
    (s.testSwitch c raw).tbTick = s.tbTick := by
  unfold State.testSwitch; split <;> rfl
@[simp] theorem State.testSwitch_tbElapsed (s : State) (c : Channel) (raw : Raw) :
    (s.testSwitch c raw).tbElapsed = s.tbElapsed := by
  unfold State.testSwitch; split <;> rfl
@[simp] theorem State.testSwitch_faulted (s : State) (c : Channel) (raw : Raw) :
    (s.testSwitch c raw).faulted = s.faulted := by
  unfold State.testSwitch; split <;> rfl
@[simp] theorem State.testSwitch_faults (s : State) (c : Channel) (raw : Raw) :
    (s.testSwitch c raw).faults = s.faults := by
  unfold State.testSwitch; split <;> rfl
@[simp] theorem State.testSwitch_pulses (s : State) (c : Channel) (raw : Raw) :
    (s.testSwitch c raw).pulses = s.pulses := by
  unfold State.testSwitch; split <;> rfl
@[simp] theorem State.testSwitch_reply (s : State) (c : Channel) (raw : Raw) :
    (s.testSwitch c raw).reply = s.reply := by
  unfold State.testSwitch; split <;> rfl
@[simp] theorem State.testSwitch_stepIndex (s : State) (c : Channel) (raw : Raw) :
    (s.testSwitch c raw).stepIndex = s.stepIndex := by
  unfold State.testSwitch; split <;> rfl
@[simp] theorem State.testSwitch_schedule (s : State) (c : Channel) (raw : Raw) :
    (s.testSwitch c raw).schedule = s.schedule := by
  unfold State.testSwitch; split <;> rfl
@[simp] theorem State.testSwitch_params (s : State) (c : Channel) (raw : Raw) :
    (s.testSwitch c raw).params = s.params := by
  unfold State.testSwitch; split <;> rfl

/-! ### detectEdge -/

@[simp] theorem State.detectEdge_cur (s : State) (c : Channel) (raw : Raw) :
    (s.detectEdge c raw).cur = s.cur := by
  unfold State.detectEdge; repeat (first | rfl | simp | split)
@[simp] theorem State.detectEdge_autoenc (s : State) (c : Channel) (raw : Raw) :
    (s.detectEdge c raw).autoenc = s.autoenc := by
  unfold State.detectEdge; repeat (first | rfl | simp | split)
@[simp] theorem State.detectEdge_run (s : State) (c : Channel) (raw : Raw) :
    (s.detectEdge c raw).run = s.run := by
  unfold State.detectEdge; repeat (first | rfl | simp | split)
@[simp] theorem State.detectEdge_inFlight (s : State) (c : Channel) (raw : Raw) :
    (s.detectEdge c raw).inFlight = s.inFlight := by
  unfold State.detectEdge; repeat (first | rfl | simp | split)
@[simp] theorem State.detectEdge_swp (s : State) (c : Channel) (raw : Raw) :
    (s.detectEdge c raw).swp = s.swp := by
  unfold State.detectEdge; repeat (first | rfl | simp | split)
@[simp] theorem State.detectEdge_samples (s : State) (c : Channel) (raw : Raw) :
    (s.detectEdge c raw).samples = s.samples := by
  unfold State.detectEdge; repeat (first | rfl | simp | split)
@[simp] theorem State.detectEdge_tbTick (s : State) (c : Channel) (raw : Raw) :
    (s.detectEdge c raw).tbTick = s.tbTick := by
  unfold State.detectEdge; repeat (first | rfl | simp | split)
@[simp] theorem State.detectEdge_tbElapsed (s : State) (c : Channel) (raw : Raw) :
    (s.detectEdge c raw).tbElapsed = s.tbElapsed := by
  unfold State.detectEdge; repeat (first | rfl | simp | split)
@[simp] theorem State.detectEdge_faulted (s : State) (c : Channel) (raw : Raw) :
    (s.detectEdge c raw).faulted = s.faulted := by
  unfold State.detectEdge; repeat (first | rfl | simp | split)
@[simp] theorem State.detectEdge_faults (s : State) (c : Channel) (raw : Raw) :
    (s.detectEdge c raw).faults = s.faults := by
  unfold State.detectEdge; repeat (first | rfl | simp | split)
@[simp] theorem State.detectEdge_pulses (s : State) (c : Channel) (raw : Raw) :
    (s.detectEdge c raw).pulses = s.pulses := by
  unfold State.detectEdge; repeat (first | rfl | simp | split)
@[simp] theorem State.detectEdge_reply (s : State) (c : Channel) (raw : Raw) :
    (s.detectEdge c raw).reply = s.reply := by
  unfold State.detectEdge; repeat (first | rfl | simp | split)
@[simp] theorem State.detectEdge_stepIndex (s : State) (c : Channel) (raw : Raw) :
    (s.detectEdge c raw).stepIndex = s.stepIndex := by
  unfold State.detectEdge; repeat (first | rfl | simp | split)
@[simp] theorem State.detectEdge_schedule (s : State) (c : Channel) (raw : Raw) :
    (s.detectEdge c raw).schedule = s.schedule := by
  unfold State.detectEdge; repeat (first | rfl | simp | split)
@[simp] theorem State.detectEdge_params (s : State) (c : Channel) (raw : Raw) :
    (s.detectEdge c raw).params = s.params := by
  unfold State.detectEdge; repeat (first | rfl | simp | split)

/-! ### Views of a write -/

@[simp] theorem State.setWheel_wheel (s : State) (w w' : Wheel) (x : WheelState) :
    (s.setWheel w x).wheel w' = if w' = w then x else s.wheel w' := by cases w <;> cases w' <;> rfl

@[simp] theorem State.wheel_left (s : State) : s.wheel .left = s.wheelL := rfl
@[simp] theorem State.wheel_right (s : State) : s.wheel .right = s.wheelR := rfl
@[simp] theorem State.setWheel_left_wheelL (s : State) (x : WheelState) :
    (s.setWheel .left x).wheelL = x := rfl
@[simp] theorem State.setWheel_left_wheelR (s : State) (x : WheelState) :
    (s.setWheel .left x).wheelR = s.wheelR := rfl
@[simp] theorem State.setWheel_right_wheelL (s : State) (x : WheelState) :
    (s.setWheel .right x).wheelL = s.wheelL := rfl
@[simp] theorem State.setWheel_right_wheelR (s : State) (x : WheelState) :
    (s.setWheel .right x).wheelR = x := rfl
@[simp] theorem State.setEnc_left_wheelL (s : State) (v : RegVal) :
    (s.setEnc .left v).wheelL = { s.wheelL with enc := v } := rfl
@[simp] theorem State.setEnc_left_wheelR (s : State) (v : RegVal) :
    (s.setEnc .left v).wheelR = s.wheelR := rfl
@[simp] theorem State.setEnc_right_wheelL (s : State) (v : RegVal) :
    (s.setEnc .right v).wheelL = s.wheelL := rfl
@[simp] theorem State.setEnc_right_wheelR (s : State) (v : RegVal) :
    (s.setEnc .right v).wheelR = { s.wheelR with enc := v } := rfl

@[simp] theorem State.writeReadOnly_eq (s : State) (v : RegVal) : s.writeReadOnly v = s := rfl

/-- A slot reads back what was put into it, and every other slot what it held (R114). -/
@[simp] theorem Samples.get_put (x : Samples) (c c' : Channel) (raw : Raw) :
    (x.put c raw).get c' = if c' = c then raw else x.get c' := by cases c <;> cases c' <;> rfl

theorem State.setSample_sample (s : State) (c c' : Channel) (raw : Raw) :
    (s.setSample c raw).sample c' = if c' = c then raw else s.sample c' := Samples.get_put ..

end Sys2Proof.Machine
end

