-- ==== Sys2Proof/Laws/Ops.lean ====
section
/-! SUPPORT. One lemma per shared operation that says everything it can do, and the inversion lemmas of
`exec` and `step`; later proofs cite these and unfold nothing. -/

namespace Sys2Proof.Machine

/-! ### Arithmetic -/

/-- The filter's shift as the floor division by 4 that omega knows (R9, R132). -/
theorem asr_avgShift (v : Int) : asr v Config.avgShift = v / 4 := rfl

theorem smooth_eq (a s : Int) : smooth a s = a + (s - a) / 4 := rfl

/-- The 8-bit-significant sample is the raw value divided by 4 (R131). -/
theorem sampleMsb_toNat (raw : Raw) : (sampleMsb raw).toNat = raw.toNat / 4 := by
  have h : raw.toNat < 1024 := raw.isLt
  simp only [sampleMsb, BitVec.extractLsb'_toNat, Nat.shiftRight_eq_div_pow]
  omega

/-- The tick condition for each sign (R133). -/
theorem tickFires_plus (e : Int) : tickFires .plus e = decide (2 < e) := by
  simp [tickFires, signInt, Config.deadband]

theorem tickFires_minus (e : Int) : tickFires .minus e = decide (e < -2) := by
  have h : (signInt .minus * e > Config.deadband) = (e < -2) := by
    simp only [signInt, Config.deadband, eq_iff_iff]
    omega
  simp only [tickFires, h]

/-- Adding 1 to the counter's value and wrapping is adding 1 to its pattern (R135). -/
theorem wrap_enc_succ (x : BitVec 16) : wrap 16 (x.toInt + 1) = x + 1#16 := by
  simp [wrap, BitVec.ofInt_add]

/-! ### The edge detector -/

/-- Everything one sample can do to a wheel: a tick (the counter counts, the sign flips), or no tick
(both stay); the average moves in either case (R133). -/
theorem edgeUpdate_cases (raw : Raw) (x : WheelState) :
    (tickFires x.sign ((raw.toNat / 4 : Nat) - smooth x.avg.toNat (raw.toNat / 4 : Nat)) = true ∧
      edgeUpdate raw x =
        ⟨wrap 8 (smooth x.avg.toNat (raw.toNat / 4 : Nat)), flipSign x.sign, x.enc + 1#16⟩) ∨
    (tickFires x.sign ((raw.toNat / 4 : Nat) - smooth x.avg.toNat (raw.toNat / 4 : Nat)) = false ∧
      edgeUpdate raw x =
        ⟨wrap 8 (smooth x.avg.toNat (raw.toNat / 4 : Nat)), x.sign, x.enc⟩) := by
  simp only [edgeUpdate, sampleMsb_toNat]
  split
  · next h => exact .inl ⟨h, by rw [wrap_enc_succ]⟩
  · next h => exact .inr ⟨by simpa using h, rfl⟩

/-- The average moves the same way whether or not a tick fires (R133). -/
theorem edgeUpdate_avg (raw : Raw) (x : WheelState) :
    (edgeUpdate raw x).avg = wrap 8 (smooth x.avg.toNat (raw.toNat / 4 : Nat)) := by
  obtain ⟨-, h⟩ | ⟨-, h⟩ := edgeUpdate_cases raw x <;> rw [h]

/-! ### EV_CONV and WR CTRL -/

/-- WR CTRL is a start, a stop, or neither (R156). -/
theorem writeCtrl_cases (s : State) (v : RegVal) :
    (s.run = false ∧ runBit v = true ∧ s.writeCtrl v =
      { s with autoenc := autoencBit v, run := true, cur := .wheelL, inFlight := some .wheelL }) ∨
    (s.run = true ∧ runBit v = false ∧ s.writeCtrl v =
      { s with autoenc := autoencBit v, run := false, inFlight := none }) ∨
    (s.run = runBit v ∧ s.writeCtrl v = { s with autoenc := autoencBit v, run := runBit v }) := by
  unfold State.writeCtrl startsRun stopsRun
  cases hr : s.run <;> cases hv : runBit v <;>
    simp [State.startConversion, State.abandonConversion]

/-- EV_CONV on a wheel channel with the gate open (R113, R115). -/
theorem detectEdge_wheel (s : State) (c : Channel) (raw : Raw) (w : Wheel) (h : wheelOf c = some w) :
    s.detectEdge c raw = if s.autoenc then s.setWheel w (edgeUpdate raw (s.wheel w)) else s := by
  simp [State.detectEdge, h]

/-- EV_CONV on a channel that is no wheel's (R115). -/
theorem detectEdge_other (s : State) (c : Channel) (raw : Raw) (h : wheelOf c = none) :
    s.detectEdge c raw = s := by simp [State.detectEdge, h]

/-- What EV_CONV does to each field that does not depend on the channel (R113). -/
theorem completeConversion_fields (s : State) (raw : Raw) :
    (s.completeConversion raw).cur = nextChannel s.cur ∧
    (s.completeConversion raw).inFlight = some (nextChannel s.cur) ∧
    (s.completeConversion raw).samples = s.samples.put s.cur raw ∧
    (s.completeConversion raw).pulses = s.pulses ++ [⟨.convIrq, s.stepIndex⟩] ∧
    (s.completeConversion raw).autoenc = s.autoenc ∧ (s.completeConversion raw).run = s.run ∧
    (s.completeConversion raw).tbTick = s.tbTick ∧
    (s.completeConversion raw).tbElapsed = s.tbElapsed ∧
    (s.completeConversion raw).faulted = s.faulted ∧ (s.completeConversion raw).faults = s.faults ∧
    (s.completeConversion raw).reply = s.reply ∧
    (s.completeConversion raw).stepIndex = s.stepIndex ∧
    (s.completeConversion raw).schedule = s.schedule ∧
    (s.completeConversion raw).params = s.params := by
  simp [State.completeConversion]

/-- What EV_CONV does to the state of each wheel (R115). -/
theorem completeConversion_wheel (s : State) (raw : Raw) (w : Wheel) :
    (s.completeConversion raw).wheel w =
      if wheelOf s.cur = some w ∧ s.autoenc = true then edgeUpdate raw (s.wheel w)
      else s.wheel w := by
  unfold State.completeConversion State.detectEdge State.testSwitch
  cases hc : s.cur <;> cases w <;> cases ha : s.autoenc <;>
    simp [wheelOf, State.setSample, State.advance, State.pulse, State.setWheel, ha,
      State.startConversion, State.wheel]

/-- What EV_CONV does to the switch flag (R117). -/
theorem completeConversion_swp (s : State) (raw : Raw) :
    (s.completeConversion raw).swp =
      if s.cur = .switches then swpAfterSample s.params.swThreshold raw s.swp else s.swp := by
  unfold State.completeConversion State.testSwitch
  split <;> simp [State.advance, State.pulse, State.startConversion]

/-! ### exec and step -/

/-- The shapes of the next state: what a transaction that is not refused leaves. -/
inductive ExecShape (s : State) : State → Prop where
  | value (v : RegVal) : ExecShape s (s.returnValue v)
  | readFault : ExecShape s (s.returnNothing.raiseFault (.unmappedRegister (.read 0xF)))
  | ctrl (v : RegVal) : ExecShape s (s.writeCtrl v)
  | status (v : RegVal) : ExecShape s (s.writeStatus v)
  | enc (w : Wheel) (v : RegVal) : ExecShape s (s.setEnc w v)
  | same : ExecShape s s
  | writeFault (v : RegVal) : ExecShape s (s.raiseFault (.unmappedRegister (.write 0xF v)))
  | conv (raw : Raw) (h : s.run = true) : ExecShape s (s.completeConversion raw)
  | tick : ExecShape s (s.tickTimeBase.pulse .tbIrq)
  | reset : ExecShape s s.resetRegs

/-- Everything a transaction can do when it is not refused. -/
theorem exec_next_cases {i : Instr} {s t : State} (h : exec i s = .next t) : ExecShape s t := by
  cases i
  case conv raw =>
    simp only [exec, execConv] at h
    split at h
    · next hr => cases h; exact .conv raw hr
    · cases h
  case rd15 => cases h; exact .readFault
  case wrCtrl v => cases h; exact .ctrl v
  case wrStatus v => cases h; exact .status v
  case wrEncL v => cases h; exact .enc .left v
  case wrEncR v => cases h; exact .enc .right v
  case wr15 v => cases h; exact .writeFault v
  case tb => cases h; exact .tick
  case reset => cases h; exact .reset
  all_goals first
    | (cases h; exact .same)
    | (cases h; exact .value _)

/-- EV_CONV while the converter runs, and while it is stopped (R110, R113). -/
theorem exec_conv_of_run {s : State} (raw : Raw) (h : s.run = true) :
    exec (.conv raw) s = .next (s.completeConversion raw) := by simp [exec, execConv, h]

theorem exec_conv_of_stopped {s : State} (raw : Raw) (h : s.run = false) :
    exec (.conv raw) s = .refused (.converterStopped raw) := by simp [exec, execConv, h]

/-- A step that takes place runs the decoded transaction in the begun state (R66). -/
theorem step_next_cases {s t : State} (h : step s = .next t) :
    ∃ i, decode s.offered.word s.offered.agent = .txn i ∧ exec i s.beginStep = .next t := by
  unfold step at h
  split at h
  · next i hi => exact ⟨i, hi, h⟩
  · cases h

/-! ### Runs -/

@[simp] theorem execAll_nil (s : State) : execAll [] s = .next s := rfl

theorem execAll_cons_next {i : Instr} {is : List Instr} {s t : State} (h : exec i s = .next t) :
    execAll (i :: is) s = execAll is t := by simp [execAll, h]

/-- A schedule that is taken to its end takes its first transaction and then the rest. -/
theorem execAll_cons_cases {i : Instr} {is : List Instr} {s u : State}
    (h : execAll (i :: is) s = .next u) : ∃ t, exec i s = .next t ∧ execAll is t = .next u := by
  unfold execAll at h
  split at h
  · next t ht => exact ⟨t, ht, h⟩
  · cases h
  · cases h

end Sys2Proof.Machine
end

