-- ==== Sys2Proof/Laws/PerInstr.lean ====
section
/-! SUPPORT. The family TableRow: every transaction's word belongs to that transaction's row of the
opcode table (R87), one lemma per constructor. -/

namespace Sys2Proof.Laws

/-- The word of the transaction has, under the mask of its row of the opcode table, the row's
bits, and the row is one of the table's (R82, R87). -/
def TableRow.Statement (i : Instr) : Prop :=
  i.tableRow.matches (encode i) = true ∧ i.tableRow ∈ opcodeTable

/-- A WR word under the WR rows' mask keeps its upper half and loses its data (R82). -/
theorem encodeWr_masked (r : RegNum) (v : RegVal) :
    encodeWr r v &&& 0xFFFF0000 = (0x2#4 ++ r ++ 0#8) ++ 0#16 := by
  have hm : (0xFFFF0000 : TxnWord) = BitVec.allOnes 16 ++ 0#16 := by decide
  rw [hm]
  exact BitVec.and_append.trans (by rw [BitVec.and_allOnes, BitVec.and_zero])

/-- A CONV word under the CONV row's mask loses its result (R82). -/
theorem encodeConv_masked (raw : Raw) : encodeConv raw &&& 0xFFFFFC00 = 0x80000000 := by
  have hm : (0xFFFFFC00 : TxnWord) = BitVec.allOnes 22 ++ 0#10 := by decide
  rw [hm]
  exact BitVec.and_append.trans (by rw [BitVec.and_allOnes, BitVec.and_zero]; rfl)

theorem wr_matches (r : RegNum) (v : RegVal) (row : TableRow)
    (h : row = ⟨(0x2#4 ++ r ++ 0#8) ++ 0#16, 0xFFFF0000⟩) :
    row.matches (encodeWr r v) = true := by
  subst h
  exact beq_iff_eq.mpr (encodeWr_masked r v)

theorem TableRow.rdCtrl : TableRow.Statement .rdCtrl := ⟨by decide, by decide⟩

theorem TableRow.rdStatus : TableRow.Statement .rdStatus := ⟨by decide, by decide⟩

theorem TableRow.rdSample0 : TableRow.Statement .rdSample0 := ⟨by decide, by decide⟩

theorem TableRow.rdSample1 : TableRow.Statement .rdSample1 := ⟨by decide, by decide⟩

theorem TableRow.rdSample2 : TableRow.Statement .rdSample2 := ⟨by decide, by decide⟩

theorem TableRow.rdSample3 : TableRow.Statement .rdSample3 := ⟨by decide, by decide⟩

theorem TableRow.rdSample4 : TableRow.Statement .rdSample4 := ⟨by decide, by decide⟩

theorem TableRow.rdSample5 : TableRow.Statement .rdSample5 := ⟨by decide, by decide⟩

theorem TableRow.rdEncL : TableRow.Statement .rdEncL := ⟨by decide, by decide⟩

theorem TableRow.rdEncR : TableRow.Statement .rdEncR := ⟨by decide, by decide⟩

theorem TableRow.rdAvgL : TableRow.Statement .rdAvgL := ⟨by decide, by decide⟩

theorem TableRow.rdAvgR : TableRow.Statement .rdAvgR := ⟨by decide, by decide⟩

theorem TableRow.rdEdge : TableRow.Statement .rdEdge := ⟨by decide, by decide⟩

theorem TableRow.rdTbTick : TableRow.Statement .rdTbTick := ⟨by decide, by decide⟩

theorem TableRow.rdTbElapsed : TableRow.Statement .rdTbElapsed := ⟨by decide, by decide⟩

theorem TableRow.rd15 : TableRow.Statement .rd15 := ⟨by decide, by decide⟩

theorem TableRow.wrCtrl (v : RegVal) : TableRow.Statement (.wrCtrl v) :=
  ⟨wr_matches _ v _ rfl, by simp only [Instr.tableRow]; decide⟩

theorem TableRow.wrStatus (v : RegVal) : TableRow.Statement (.wrStatus v) :=
  ⟨wr_matches _ v _ rfl, by simp only [Instr.tableRow]; decide⟩

theorem TableRow.wrSample0 (v : RegVal) : TableRow.Statement (.wrSample0 v) :=
  ⟨wr_matches _ v _ rfl, by simp only [Instr.tableRow]; decide⟩

theorem TableRow.wrSample1 (v : RegVal) : TableRow.Statement (.wrSample1 v) :=
  ⟨wr_matches _ v _ rfl, by simp only [Instr.tableRow]; decide⟩

theorem TableRow.wrSample2 (v : RegVal) : TableRow.Statement (.wrSample2 v) :=
  ⟨wr_matches _ v _ rfl, by simp only [Instr.tableRow]; decide⟩

theorem TableRow.wrSample3 (v : RegVal) : TableRow.Statement (.wrSample3 v) :=
  ⟨wr_matches _ v _ rfl, by simp only [Instr.tableRow]; decide⟩

theorem TableRow.wrSample4 (v : RegVal) : TableRow.Statement (.wrSample4 v) :=
  ⟨wr_matches _ v _ rfl, by simp only [Instr.tableRow]; decide⟩

theorem TableRow.wrSample5 (v : RegVal) : TableRow.Statement (.wrSample5 v) :=
  ⟨wr_matches _ v _ rfl, by simp only [Instr.tableRow]; decide⟩

theorem TableRow.wrEncL (v : RegVal) : TableRow.Statement (.wrEncL v) :=
  ⟨wr_matches _ v _ rfl, by simp only [Instr.tableRow]; decide⟩

theorem TableRow.wrEncR (v : RegVal) : TableRow.Statement (.wrEncR v) :=
  ⟨wr_matches _ v _ rfl, by simp only [Instr.tableRow]; decide⟩

theorem TableRow.wrAvgL (v : RegVal) : TableRow.Statement (.wrAvgL v) :=
  ⟨wr_matches _ v _ rfl, by simp only [Instr.tableRow]; decide⟩

theorem TableRow.wrAvgR (v : RegVal) : TableRow.Statement (.wrAvgR v) :=
  ⟨wr_matches _ v _ rfl, by simp only [Instr.tableRow]; decide⟩

theorem TableRow.wrEdge (v : RegVal) : TableRow.Statement (.wrEdge v) :=
  ⟨wr_matches _ v _ rfl, by simp only [Instr.tableRow]; decide⟩

theorem TableRow.wrTbTick (v : RegVal) : TableRow.Statement (.wrTbTick v) :=
  ⟨wr_matches _ v _ rfl, by simp only [Instr.tableRow]; decide⟩

theorem TableRow.wrTbElapsed (v : RegVal) : TableRow.Statement (.wrTbElapsed v) :=
  ⟨wr_matches _ v _ rfl, by simp only [Instr.tableRow]; decide⟩

theorem TableRow.wr15 (v : RegVal) : TableRow.Statement (.wr15 v) :=
  ⟨wr_matches _ v _ rfl, by simp only [Instr.tableRow]; decide⟩

theorem TableRow.conv (raw : Raw) : TableRow.Statement (.conv raw) :=
  ⟨beq_iff_eq.mpr (encodeConv_masked raw), by simp only [Instr.tableRow]; decide⟩

theorem TableRow.tb : TableRow.Statement .tb := ⟨by decide, by decide⟩

theorem TableRow.reset : TableRow.Statement .reset := ⟨by decide, by decide⟩

end Sys2Proof.Laws
end

