-- ==== Sys2Proof/Machine/AssemblerText.lean ====
section
/-! DEFINITION. The written form of the assembler's lines (R94) and of the pseudo-instructions (R96):
mnemonic first, operands separated by commas, `;` starts a comment, and the prefix of the issuing
agent. A line is read as its characters. The step function reads none of these. -/

namespace Sys2Proof.Machine

/-! ### Tokens -/

/-- The line up to its comment, which `;` starts (R94). -/
def stripComment : List Char → List Char
  | [] => []
  | c :: cs => if c = ';' then [] else c :: stripComment cs

/-- A space or a tab, which separates tokens. -/
def isBlank (c : Char) : Bool := c = ' ' || c = '\t'

/-- The pending token, if it has any characters, before the tokens that follow it; its characters
are held last first. -/
def flushToken (pending : List Char) (rest : List (List Char)) : List (List Char) :=
  if pending = [] then rest else pending.reverse :: rest

/-- The tokens of a line; a comma is a token of its own. -/
def tokensFrom (pending : List Char) : List Char → List (List Char)
  | [] => flushToken pending []
  | c :: cs =>
    if isBlank c then flushToken pending (tokensFrom [] cs)
    else if c = ',' then flushToken pending ([','] :: tokensFrom [] cs)
    else tokensFrom (c :: pending) cs

/-- The tokens of a line without its comment (R94). -/
def tokens (line : List Char) : List (List Char) := tokensFrom [] (stripComment line)

/-! ### Numbers (R9) -/

/-- The value of a digit, hexadecimal digits in either case. -/
def digitValue (c : Char) : Option Nat :=
  if '0'.toNat ≤ c.toNat ∧ c.toNat ≤ '9'.toNat then some (c.toNat - '0'.toNat)
  else if 'A'.toNat ≤ c.toNat ∧ c.toNat ≤ 'F'.toNat then some (c.toNat - 'A'.toNat + 10)
  else if 'a'.toNat ≤ c.toNat ∧ c.toNat ≤ 'f'.toNat then some (c.toNat - 'a'.toNat + 10)
  else none

/-- The digits read on from the value `acc` of those before them. -/
def readDigits (base acc : Nat) : List Char → Option Nat
  | [] => some acc
  | c :: cs =>
    match digitValue c with
    | some d => if d < base then readDigits base (acc * base + d) cs else none
    | none => none

/-- At least one digit. -/
def readDigits1 (base : Nat) (cs : List Char) : Option Nat :=
  if cs = [] then none else readDigits base 0 cs

/-- A number without a sign: `0x` hexadecimal, `0b` binary, else decimal (R9). -/
def readNat : List Char → Option Nat
  | '0' :: 'x' :: cs => readDigits1 16 cs
  | '0' :: 'b' :: cs => readDigits1 2 cs
  | cs => readDigits1 10 cs

/-- A number, with a minus sign before it or none (R94). -/
def readInt : List Char → Option Int
  | '-' :: cs => (readNat cs).map fun n => -(n : Int)
  | cs => (readNat cs).map fun n => (n : Int)

/-! ### Operands and lines -/

/-- The register names of R25, as an operand writes them (R94). -/
def regName : Reg → List Char
  | .ctrl => ['C', 'T', 'R', 'L']
  | .status => ['S', 'T', 'A', 'T', 'U', 'S']
  | .sample .wheelL => ['S', 'A', 'M', 'P', 'L', 'E', '0']
  | .sample .wheelR => ['S', 'A', 'M', 'P', 'L', 'E', '1']
  | .sample .switches => ['S', 'A', 'M', 'P', 'L', 'E', '2']
  | .sample .irL => ['S', 'A', 'M', 'P', 'L', 'E', '3']
  | .sample .irR => ['S', 'A', 'M', 'P', 'L', 'E', '4']
  | .sample .battery => ['S', 'A', 'M', 'P', 'L', 'E', '5']
  | .enc .left => ['E', 'N', 'C', '_', 'L']
  | .enc .right => ['E', 'N', 'C', '_', 'R']
  | .avg .left => ['A', 'V', 'G', '_', 'L']
  | .avg .right => ['A', 'V', 'G', '_', 'R']
  | .edge => ['E', 'D', 'G', 'E']
  | .tbTick => ['T', 'B', '_', 'T', 'I', 'C', 'K']
  | .tbElapsed => ['T', 'B', '_', 'E', 'L', 'A', 'P', 'S', 'E', 'D']

/-- The fifteen mapped registers, in the order of R25. -/
def allRegs : List Reg :=
  [.ctrl, .status, .sample .wheelL, .sample .wheelR, .sample .switches, .sample .irL, .sample .irR,
    .sample .battery, .enc .left, .enc .right, .avg .left, .avg .right, .edge, .tbTick, .tbElapsed]

/-- The register with this name (R94). -/
def readRegName (cs : List Char) : Option Reg := allRegs.find? fun r => regName r = cs

/-- A register operand: a name, else a number (R94). -/
def readRegOperand (cs : List Char) : Option RegOperand :=
  match readRegName cs with
  | some r => some (.name r)
  | none => (readInt cs).map .number

/-- A line of R94 from its tokens, its operands not yet checked. -/
def readLine : List (List Char) → Option Line
  | [['R', 'D'], r] => (readRegOperand r).map .rd
  | [['W', 'R'], r, [','], imm] =>
    match readRegOperand r, readInt imm with
    | some r, some imm => some (.wr r imm)
    | _, _ => none
  | [['C', 'O', 'N', 'V'], raw] => (readInt raw).map .conv
  | [['T', 'B']] => some .tb
  | [['R', 'E', 'S', 'E', 'T']] => some .reset
  | _ => none

/-- The issuing agent and the tokens after its prefix; a host line has no prefix (R94). -/
def readIssuer : List (List Char) → Agent × List (List Char)
  | ['@', 'c', 'o', 'n', 'v'] :: ts => (.converter, ts)
  | ['@', 't', 'b'] :: ts => (.timeBase, ts)
  | ts => (.host, ts)

/-- A written line: the word with its issuing agent, which goes to the decoder with it (R85); `none`
where the assembler refuses the line (R94). R94 does not say whether a line with nothing but blanks or
a comment is skipped or refused; it has no transaction, and the model answers `none` for it too
(DESIGN CHOICE, log entry 15). -/
def assembleText (line : List Char) : Option Offer :=
  let (agent, ts) := readIssuer (tokens line)
  match readLine ts with
  | some l => (assemble l).map fun w => ⟨agent, w⟩
  | none => none

/-! ### Pseudo-instructions (R96) -/

/-- A 16-bit operand in the range of `<imm>` (R94). -/
def readImm (cs : List Char) : Option RegVal :=
  match readInt cs with
  | some n => if immOk n then some (wrap 16 n) else none
  | none => none

/-- A pseudo-instruction from its tokens, its register number and wait not yet checked (R96). -/
def readPseudoTokens : List (List Char) → Option Pseudo
  | [['E', 'N', 'C', 'S', 'E', 'T'], a, [','], b] =>
    match readImm a, readImm b with
    | some a, some b => some (.encSet a b)
    | _, _ => none
  | [['C', 'L', 'R', 'S', 'W']] => some .clrSw
  | [['S', 'T', 'A', 'R', 'T']] => some .start
  | [['E', 'N', 'C', 'O', 'F', 'F']] => some .encOff
  | [['E', 'N', 'C', 'O', 'N']] => some .encOn
  | [['S', 'T', 'O', 'P']] => some .stop
  | [['P', 'O', 'L', 'L'], r, [','], m, [','], v] =>
    match readRegOperand r, readImm m, readImm v with
    | some r, some m, some v => some (.poll r m v)
    | _, _, _ => none
  | [['W', 'A', 'I', 'T', 'T', 'B'], n] => (readNat n).map .waitTb
  | _ => none

/-- A written pseudo-instruction; `none` where it is none, or an operand is out of range (R96). -/
def readPseudo (line : List Char) : Option Pseudo :=
  match readPseudoTokens (tokens line) with
  | some p => if pseudoOk p then some p else none
  | none => none

end Sys2Proof.Machine
end

