-- ==== Sys2Proof/Tests/Slice0.lean ====
section
/-! SUPPORT. The model's own tests. Every expected value is a vector or a worked example of the spec
(95_test_vectors.md, R95, the examples of the rules) or a hand calculation from a rule; then one
witness for the hypotheses of each obligation that has any. -/

namespace Sys2Proof.Tests

open Sys2Proof Sys2Proof.Machine

/-! ### Helpers -/

/-- The state an outcome leaves, `none` for a stop. -/
def nextOf (o : Host.Outcome State Fault Refusal) : Option State :=
  match o with
  | .next s => some s
  | _ => none

/-- The refusal an outcome is. -/
def refusalIn (o : Host.Outcome State Fault Refusal) : Option Refusal :=
  match o with
  | .refused r => some r
  | _ => none

/-- A small state: stopped, everything 0, with the parameter values of 95_test_vectors.md. -/
def bench : State where
  cur := .wheelL
  autoenc := false
  run := false
  inFlight := none
  swp := false
  samples := ⟨0, 0, 0, 0, 0, 0⟩
  wheelL := ⟨0, .plus, 0⟩
  wheelR := ⟨0, .plus, 0⟩
  tbTick := 0
  tbElapsed := 0
  faulted := false
  faults := []
  pulses := []
  reply := none
  stepIndex := 0
  schedule := []
  params := ⟨512, 0, 0, .plus, .plus⟩

/-- The start state of the EV_CONV vectors (section 2.4), at a channel, a gate and a switch flag. -/
def convBench (c : Channel) (gate swp : Bool) : State :=
  { bench with
    cur := c, autoenc := gate, run := true, inFlight := some c, swp := swp
    wheelL := ⟨100, .plus, 0⟩, wheelR := ⟨100, .plus, 0⟩ }

/-- The start state of the RD vectors (section 2.5). -/
def rdBench : State :=
  { bench with
    autoenc := true, run := true, cur := .irR, inFlight := some .irR, swp := true
    samples := ⟨1, 2, 3, 4, 5, 1023⟩
    wheelL := ⟨37, .minus, 0xFFFF⟩, wheelR := ⟨200, .plus, 300⟩
    tbTick := 0x2C, tbElapsed := 0x1234 }

/-- The start state of the RD vectors with the converter stopped. -/
def rdStopped : State := { rdBench with run := false, inFlight := none }

/-! ### Well-formedness, ill-formed terms refused (R85, R94, R96) -/

theorem test_wellFormed_refuses_other_agent :
    Instr.wellFormed .host (.conv 5) = false ∧ Instr.wellFormed .converter (.wrCtrl 3) = false ∧
      Instr.wellFormed .timeBase .reset = false ∧ Instr.wellFormed .timeBase .tb = true := by decide

theorem test_assembler_refuses_operands_out_of_range :
    lineOk (.rd (.number 16)) = false ∧ lineOk (.wr (.number (-1)) 0) = false ∧
      lineOk (.wr (.name .ctrl) 65536) = false ∧ lineOk (.wr (.name .ctrl) (-32769)) = false ∧
      lineOk (.conv 1024) = false ∧ lineOk (.conv (-1)) = false := by decide

theorem test_pseudo_refuses_wait_out_of_range :
    pseudoOk (.waitTb 0) = false ∧ pseudoOk (.waitTb 256) = false ∧ pseudoOk (.waitTb 255) = true :=
  by decide

/-! ### Decoding, each word written out from R82 -/

theorem test_decode_rd_words :
    decode 0b0001_0000_00000000_0000000000000000 .host = .txn .rdCtrl ∧
    decode 0b0001_0001_00000000_0000000000000000 .host = .txn .rdStatus ∧
    decode 0b0001_0010_00000000_0000000000000000 .host = .txn .rdSample0 ∧
    decode 0b0001_0011_00000000_0000000000000000 .host = .txn .rdSample1 ∧
    decode 0b0001_0100_00000000_0000000000000000 .host = .txn .rdSample2 ∧
    decode 0b0001_0101_00000000_0000000000000000 .host = .txn .rdSample3 ∧
    decode 0b0001_0110_00000000_0000000000000000 .host = .txn .rdSample4 ∧
    decode 0b0001_0111_00000000_0000000000000000 .host = .txn .rdSample5 ∧
    decode 0b0001_1000_00000000_0000000000000000 .host = .txn .rdEncL ∧
    decode 0b0001_1001_00000000_0000000000000000 .host = .txn .rdEncR ∧
    decode 0b0001_1010_00000000_0000000000000000 .host = .txn .rdAvgL ∧
    decode 0b0001_1011_00000000_0000000000000000 .host = .txn .rdAvgR ∧
    decode 0b0001_1100_00000000_0000000000000000 .host = .txn .rdEdge ∧
    decode 0b0001_1101_00000000_0000000000000000 .host = .txn .rdTbTick ∧
    decode 0b0001_1110_00000000_0000000000000000 .host = .txn .rdTbElapsed ∧
    decode 0b0001_1111_00000000_0000000000000000 .host = .txn .rd15 := by
  decide

theorem test_decode_wr_words :
    decode 0b0010_0000_00000000_1111111111110110 .host = .txn (.wrCtrl 0xFFF6) ∧
    decode 0b0010_0001_00000000_1111111111110110 .host = .txn (.wrStatus 0xFFF6) ∧
    decode 0b0010_0010_00000000_1111111111110110 .host = .txn (.wrSample0 0xFFF6) ∧
    decode 0b0010_0011_00000000_1111111111110110 .host = .txn (.wrSample1 0xFFF6) ∧
    decode 0b0010_0100_00000000_1111111111110110 .host = .txn (.wrSample2 0xFFF6) ∧
    decode 0b0010_0101_00000000_1111111111110110 .host = .txn (.wrSample3 0xFFF6) ∧
    decode 0b0010_0110_00000000_1111111111110110 .host = .txn (.wrSample4 0xFFF6) ∧
    decode 0b0010_0111_00000000_1111111111110110 .host = .txn (.wrSample5 0xFFF6) ∧
    decode 0b0010_1000_00000000_1111111111110110 .host = .txn (.wrEncL 0xFFF6) ∧
    decode 0b0010_1001_00000000_1111111111110110 .host = .txn (.wrEncR 0xFFF6) ∧
    decode 0b0010_1010_00000000_1111111111110110 .host = .txn (.wrAvgL 0xFFF6) ∧
    decode 0b0010_1011_00000000_1111111111110110 .host = .txn (.wrAvgR 0xFFF6) ∧
    decode 0b0010_1100_00000000_1111111111110110 .host = .txn (.wrEdge 0xFFF6) ∧
    decode 0b0010_1101_00000000_1111111111110110 .host = .txn (.wrTbTick 0xFFF6) ∧
    decode 0b0010_1110_00000000_1111111111110110 .host = .txn (.wrTbElapsed 0xFFF6) ∧
    decode 0b0010_1111_00000000_1111111111110110 .host = .txn (.wr15 0xFFF6) := by
  decide

theorem test_decode_event_words :
    decode 0b1000_0000_00000000_000000_1010100111 .converter = .txn (.conv 0x2A7) ∧
    decode 0b1001_0000_00000000_0000000000000000 .timeBase = .txn .tb ∧
    decode 0b1111_0000_00000000_0000000000000000 .host = .txn .reset := by decide

/-- Section 2.1: the refused words. -/
theorem test_decode_refusals :
    decode 0x10000001 .host = .refuse .reservedEncoding ∧
    decode 0x20FF0000 .host = .refuse .reservedEncoding ∧
    decode 0x80000400 .converter = .refuse .reservedEncoding ∧
    decode 0x81000000 .converter = .refuse .reservedEncoding ∧
    decode 0x800003FF .host = .refuse .wrongAgent ∧
    decode 0x90000001 .timeBase = .refuse .reservedEncoding ∧
    decode 0x90000000 .host = .refuse .wrongAgent ∧
    decode 0xF0000000 .timeBase = .refuse .wrongAgent ∧
    decode 0x00000000 .host = .refuse .reservedEncoding ∧
    decode 0x30000000 .host = .refuse .reservedEncoding ∧
    decode 0xA0000000 .timeBase = .refuse .reservedEncoding ∧
    decode 0xE0000000 .host = .refuse .reservedEncoding ∧
    decode 0x20000003 .converter = .refuse .wrongAgent := by decide

/-- R95: the encoder's words. -/
theorem test_encode_examples :
    encode .rdSample5 = 0x17000000 ∧ encode (.wrEncL 0xFFFF) = 0x2800FFFF ∧
    encode (.conv 512) = 0x80000200 ∧ encode .tb = 0x90000000 ∧ encode .reset = 0xF0000000 := by
  decide

/-- R63: `WR ENC_L, -1` as bytes, low byte first. -/
theorem test_bytes_little_endian :
    bytesOfWord 0x2800FF01 = [0x01, 0xFF, 0x00, 0x28] ∧
    decodeBytes [0x01, 0xFF, 0x00, 0x28] .host = .txn (.wrEncL 0xFF01) ∧
    decodeBytes [0x00, 0x00, 0x10] .host = .refuse .notOneWord := by decide

theorem test_decodeTableWord :
    decodeTableWord 32 0x80000000 = some (.conv 0) ∧ decodeTableWord 32 0x2F000000 = some (.wr15 0) ∧
    decodeTableWord 32 0x90000000 = some .tb ∧ decodeTableWord 32 0xA0000000 = none := by decide

/-- R94 and R95: assembler lines. -/
theorem test_assemble_examples :
    assemble (.rd (.name (.sample .battery))) = some 0x17000000 ∧
    assemble (.wr (.name (.enc .left)) (-1)) = some 0x2800FFFF ∧
    assemble (.conv 1023) = some 0x800003FF ∧ assemble (.rd (.number 15)) = some 0x1F000000 ∧
    assemble (.conv 1024) = none := by decide

/-- R94 and R95: written lines with their agents, one with a comment, and refused ones: a number out of
range, a missing comma, an unknown name. -/
theorem test_assemble_text :
    assembleText ['R', 'D', ' ', 'S', 'A', 'M', 'P', 'L', 'E', '5'] = some ⟨.host, 0x17000000⟩ ∧
    assembleText ['W', 'R', ' ', 'E', 'N', 'C', '_', 'L', ',', ' ', '-', '1', ' ', ';', ' ', 'x'] =
      some ⟨.host, 0x2800FFFF⟩ ∧
    assembleText ['W', 'R', ' ', '0', ',', '0', 'x', 'F', 'F', 'F', 'E'] =
      some ⟨.host, 0x2000FFFE⟩ ∧
    assembleText ['@', 'c', 'o', 'n', 'v', ' ', 'C', 'O', 'N', 'V', ' ', '5', '1', '2'] =
      some ⟨.converter, 0x80000200⟩ ∧
    assembleText ['@', 't', 'b', ' ', 'T', 'B'] = some ⟨.timeBase, 0x90000000⟩ ∧
    assembleText ['R', 'D', ' ', '1', '6'] = none ∧
    assembleText ['W', 'R', ' ', '0', ' ', '1'] = none ∧
    assembleText ['R', 'D', ' ', 'A', 'V', 'G'] = none := by decide

/-- R96: written pseudo-instructions, and a wait out of range. -/
theorem test_pseudo_text :
    readPseudo ['P', 'O', 'L', 'L', ' ', 'E', 'N', 'C', '_', 'L', ',', '0', 'x', 'F', 'F', 'F', 'F',
      ',', '1', '0'] = some (.poll (.name (.enc .left)) 0xFFFF 10) ∧
    readPseudo ['E', 'N', 'C', 'S', 'E', 'T', ' ', '0', ',', '0'] = some (.encSet 0 0) ∧
    readPseudo ['W', 'A', 'I', 'T', 'T', 'B', ' ', '2', '5', '6'] = none := by decide

/-- R96: the straight-line pseudo-instructions. -/
theorem test_pseudo_words :
    (expand (.encSet 0 0)).map encode = [0x28000000, 0x29000000] ∧
    (expand .clrSw).map encode = [0x21000001] ∧ (expand .start).map encode = [0x20000003] ∧
    (expand .encOff).map encode = [0x20000002] ∧ (expand .encOn).map encode = [0x20000003] ∧
    (expand .stop).map encode = [0x20000000] := by decide

/-- R211: hooks that wait on a sample slot, on the time base or for a press are not admitted; one that
waits on nothing is, nor does a POLL wait on events whose condition no event can bring about. -/
theorem test_hook_admitted :
    pseudoHookAdmitted [.poll (.name (.sample .battery)) 0xFFFF 0] = false ∧
    pseudoHookAdmitted [.waitTb 3] = false ∧
    pseudoHookAdmitted [.poll (.name .status) 0x1 1] = false ∧
    pseudoHookAdmitted [.clrSw, .encSet 0 0] = true ∧
    pseudoHookAdmitted [.poll (.number 15) 0xFFFF 0, .poll (.name (.sample .wheelL)) 0xFC00 0,
      .poll (.name .ctrl) 2 2, .poll (.name .status) 0x1 0, .poll (.name .status) 0xE 12] = true := by
  decide

/-- R96: POLL of the unmapped register reads no value and does not leave (log entry 16). -/
theorem test_poll_unmapped :
    (pollLoop (.number 15) 0 0 [[], [], []] bench).isNone = true := by decide

/-! ### The register map (R25) -/

theorem test_register_numbers :
    regOfNumber (regNumber (.sample .irR)) = some (.sample .irR) ∧ regNumber (.sample .battery) = 7 ∧
    regOfNumber 0xF = none ∧ accessRight .edge = .readOnly ∧ accessRight .status = .writeOneToClear :=
  by decide

/-! ### EV_TB (section 2.2) -/

theorem test_tb_wrap_carries :
    (nextOf (exec .tb { bench with tbTick := 0xFF, tbElapsed := 3 })).map
      (fun t => (t.tbTick, t.tbElapsed, t.pulses)) = some (0, 4, [⟨.tbIrq, 0⟩]) := by decide

theorem test_tb_both_wrap :
    (nextOf (exec .tb { bench with tbTick := 0xFF, tbElapsed := 0xFFFF })).map
      (fun t => (t.tbTick, t.tbElapsed)) = some (0, 0) ∧
    (nextOf (exec .tb { bench with tbTick := 0x7F })).map (fun t => (t.tbTick, t.tbElapsed)) =
      some (0x80, 0) := by decide

/-! ### edge_update (section 2.3) -/

theorem test_edge_ticks :
    edgeUpdate 420 ⟨100, .plus, 0⟩ = ⟨101, .minus, 1⟩ ∧
    edgeUpdate 412 ⟨100, .plus, 0⟩ = ⟨100, .minus, 1⟩ ∧
    edgeUpdate 384 ⟨100, .minus, 5⟩ = ⟨99, .plus, 6⟩ ∧
    edgeUpdate 1023 ⟨0, .plus, 0⟩ = ⟨63, .minus, 1⟩ ∧
    edgeUpdate 0 ⟨255, .minus, 0⟩ = ⟨191, .plus, 1⟩ ∧
    edgeUpdate 300 ⟨50, .plus, 0x7FFF⟩ = ⟨56, .minus, 0x8000⟩ ∧
    edgeUpdate 48 ⟨9, .plus, 0⟩ = ⟨9, .minus, 1⟩ ∧
    edgeUpdate 600 ⟨128, .plus, 0⟩ = ⟨133, .minus, 1⟩ ∧
    edgeUpdate 0 ⟨7, .minus, 0xFFFF⟩ = ⟨5, .plus, 0⟩ := by decide

theorem test_edge_no_ticks :
    edgeUpdate 408 ⟨100, .plus, 0⟩ = ⟨100, .plus, 0⟩ ∧
    edgeUpdate 388 ⟨100, .minus, 5⟩ = ⟨99, .minus, 5⟩ ∧
    edgeUpdate 0 ⟨255, .plus, 0⟩ = ⟨191, .plus, 0⟩ ∧
    edgeUpdate 803 ⟨200, .plus, 0⟩ = ⟨200, .plus, 0⟩ ∧
    edgeUpdate 3 ⟨0, .plus, 0⟩ = ⟨0, .plus, 0⟩ := by decide

/-! ### EV_CONV (section 2.4) -/

theorem test_conv_wheels :
    (nextOf (exec (.conv 600) (convBench .wheelR true false))).map
      (fun t => (t.cur, t.samples.wheelR, t.wheelL, t.wheelR)) =
        some (.switches, 600, ⟨100, .plus, 0⟩, ⟨112, .minus, 1⟩) ∧
    (nextOf (exec (.conv 600) (convBench .wheelL false false))).map
      (fun t => (t.cur, t.samples.wheelL, t.wheelL)) = some (.wheelR, 600, ⟨100, .plus, 0⟩) := by
  decide

theorem test_conv_switch_and_wrap :
    (nextOf (exec (.conv 511) (convBench .switches true false))).map (·.swp) = some true ∧
    (nextOf (exec (.conv 512) (convBench .switches true false))).map (·.swp) = some false ∧
    (nextOf (exec (.conv 1023) (convBench .switches false true))).map (·.swp) = some true ∧
    (nextOf (exec (.conv 0x2A7) (convBench .battery false false))).map
      (fun t => (t.samples.battery, t.cur, t.inFlight, t.pulses)) =
        some (0x2A7, .wheelL, some .wheelL, [⟨.convIrq, 0⟩]) := by decide

theorem test_conv_refused_while_stopped :
    refusalIn (exec (.conv 5) bench) = some (.converterStopped 5) := by decide

/-! ### RD (section 2.5) -/

theorem test_rd_values :
    [Instr.rdCtrl, .rdStatus, .rdSample0, .rdSample1, .rdSample2, .rdSample3, .rdSample4, .rdSample5,
      .rdEncL, .rdEncR, .rdAvgL, .rdAvgR, .rdEdge, .rdTbTick, .rdTbElapsed].map
        (fun i => (nextOf (exec i rdBench)).bind (·.reply)) =
    [some 0x0003, some 0x0009, some 0x0001, some 0x0002, some 0x0003, some 0x0004, some 0x0005,
      some 0x03FF, some 0xFFFF, some 0x012C, some 0x0025, some 0x00C8, some 0x0001, some 0x002C,
      some 0x1234] := by decide

theorem test_rd15_faults :
    (nextOf (exec .rd15 rdBench)).map (fun t => (t.reply, t.faulted, t.faults)) =
      some (none, true, [.unmappedRegister (.read 15)]) := by decide

/-! ### WR and RESET (section 2.6) -/

theorem test_wr_ctrl :
    (nextOf (exec (.wrCtrl 3) { bench with cur := .irL })).map
      (fun t => (t.autoenc, t.run, t.cur, t.inFlight)) =
        some (true, true, .wheelL, some .wheelL) ∧
    (nextOf (exec (.wrCtrl 2) (convBench .irL true false))).map
      (fun t => (t.autoenc, t.run, t.cur)) = some (false, true, .irL) ∧
    (nextOf (exec (.wrCtrl 0) (convBench .irL true false))).map
      (fun t => (t.autoenc, t.run, t.cur, t.inFlight)) = some (false, false, .irL, none) ∧
    (nextOf (exec (.wrCtrl 0xFFFE) { bench with cur := .switches })).map
      (fun t => (t.autoenc, t.run, t.cur)) = some (false, true, .wheelL) := by decide

theorem test_wr_status :
    (nextOf (exec (.wrStatus 1) (convBench .switches true true))).map (fun t => (t.swp, t.cur)) =
      some (false, .switches) ∧
    (nextOf (exec (.wrStatus 0xFFFE) (convBench .switches true true))).map (·.swp) = some true := by
  decide

theorem test_wr_enc :
    (nextOf (exec (.wrEncL 0xFFF6) rdBench)).map (fun t => t.wheelL.enc.toInt) = some (-10) ∧
    (nextOf (exec (.wrEncR 0x8000) rdBench)).map (fun t => (t.wheelR.enc.toInt, t.wheelL)) =
      some (-32768, ⟨37, .minus, 0xFFFF⟩) := by decide

theorem test_wr_read_only :
    nextOf (exec (.wrSample0 5) rdBench) = some rdBench ∧
    nextOf (exec (.wrTbTick 0) rdBench) = some rdBench := by decide

theorem test_wr15_faults :
    nextOf (exec (.wr15 0x1234) rdBench) =
      some { rdBench with
        faulted := true, faults := [.unmappedRegister (.write 15 0x1234)] } := by decide

theorem test_reset :
    nextOf (exec .reset
      { rdBench with faulted := true, params := ⟨512, 10, 20, .plus, .minus⟩ }) =
      some { bench with
        faulted := true, params := ⟨512, 10, 20, .plus, .minus⟩
        wheelL := ⟨10, .plus, 0⟩, wheelR := ⟨20, .minus, 0⟩ } := by decide

/-! ### Steps -/

/-- The placed word runs as the very next step, from reset too (the host's probe). -/
theorem test_step_of_placed_word :
    (nextOf (step (bench.withFetchWord 32 0x2000FFFE))).map (fun t => (t.run, t.stepIndex)) =
      some (true, 1) ∧
    (nextOf (step (bench.withFetchWord 32 0x80000190))).map (fun t => (t.samples.wheelL, t.cur)) =
      some (400, .wheelR) ∧
    (nextOf (step (State.reset.withFetchWord 32 0x1F000000))).map (·.faulted) = some true := by
  decide

theorem test_step_refusals :
    refusalIn (step { bench with schedule := [⟨.host, 0⟩] }) = some (.reservedEncoding 0) ∧
    refusalIn (step { bench with schedule := [⟨.host, 0x90000000⟩] }) =
      some (.wrongAgent 0x90000000 .host) := by decide

/-- P4, steps 5 to 10: WAITTB 3 reads, one tick falls, it loops, two more fall, it leaves. -/
theorem test_waittb_loop :
    (waitTbLoop 3 [[], [.tb], [.tb, .tb]] { bench with tbTick := 0x2C }).map
      (fun t => (t.tbTick, t.reply)) = some (0x2F, some 0x002F) ∧
    (waitTbLoop 3 [[], [.tb], [.tb]] { bench with tbTick := 0x2C }).isNone = true := by decide

/-- P5: POLL ENC_L leaves once a tick has made it 1. -/
theorem test_poll_loop :
    (pollLoop (.name (.enc .left)) 0xFFFF 1 [[], [.conv 600]] (convBench .wheelL true false)).map (·.reply) =
      some (some 1) := by decide

/-- R205: a wrap of TB_TICK between the first two reads tears the first pass, and the second pass
gives one moment. -/
theorem test_time_read_loop :
    (timeReadLoop [[], [.tb], [], [], [], []] { bench with tbTick := 0xFF, tbElapsed := 3 }).map (·.1) =
      some (4, 0) ∧
    (timeReadLoop [[], [.tb], []] { bench with tbTick := 0xFF, tbElapsed := 3 }).isNone = true := by
  decide

/-- Two rules of the switch flag against a clear (R212): the later of the two wins. -/
theorem test_clear_races_set :
    (nextOf (execAll [.wrStatus 1, .conv 100] (convBench .switches true true))).map (·.swp) =
      some true ∧
    (nextOf (execAll [.conv 100, .wrStatus 1] (convBench .switches true true))).map (·.swp) =
      some false := by decide

/-- R204: an EV_CONV between the two WRs of ENCSET leaves ENC_L above a. -/
theorem test_encset_is_not_atomic :
    (nextOf (execAll [.wrEncL 0, .conv 600, .wrEncR 0] (convBench .wheelL true false))).map
      (fun t => (t.wheelL.enc, t.wheelR.enc)) = some (1, 0) := by decide

/-! ### Witnesses: concrete states and operands that meet each obligation's hypotheses -/

theorem witness_DecodeOfEncode : (Instr.conv 1023).wellFormed .converter = true := by decide

theorem witness_DecodedWordsAreEncodings : decode 0x2F00FFFF .host = .txn (.wr15 0xFFFF) := by decide

theorem witness_ReservedWordsAreRefused :
    ({ bench with schedule := [⟨.converter, 0x80000400⟩] } : State).schedule =
      ⟨.converter, 0x80000400⟩ :: [] ∧
    decode 0x80000400 .converter = .refuse .reservedEncoding := by decide

theorem witness_OtherAgentsWordsAreRefused :
    (decode 0x90000000 .timeBase = .txn .tb ∧ Agent.host ≠ .timeBase) ∧
    ({ bench with schedule := [⟨.host, 0x90000000⟩] } : State).schedule =
      ⟨.host, 0x90000000⟩ :: [] ∧
    decode 0x90000000 .host = .refuse .wrongAgent := by decide

theorem witness_BytesAreLittleEndian : ([1, 2, 3, 4, 5] : List Byte).length ≠ 4 := by decide

theorem witness_OpcodeRowsAreDisjoint :
    (Instr.rdCtrl.tableRow ∈ opcodeTable ∧ Instr.rdCtrl.tableRow.matches 0x10000000 = true) ∧
    ∀ row ∈ opcodeTable, row.matches 0x10000001 = false := by decide

theorem witness_PowerOnIsReset :
    State.reset.params = State.reset.params ∧
      exec .reset State.reset = .next State.reset.resetRegs := ⟨rfl, rfl⟩

theorem witness_AccessesAreIdempotent :
    exec (rdOf (regNumber .edge)) rdBench = .next (rdBench.returnValue 1) ∧
    exec (wrOf (regNumber .ctrl) 3) bench = .next (bench.writeCtrl 3) ∧
    accessRight (.avg .right) = .readOnly := ⟨rfl, rfl, rfl⟩

theorem witness_ReservedBitsReadZero :
    (0xFFFE : RegVal) &&& 0x3 = 0x2 &&& 0x3 ∧ (0xFFFF : RegVal) &&& 0x1 = 0x1 &&& 0x1 ∧
    accessRight .tbElapsed = .readOnly := by decide

theorem witness_ElapsedTotal :
    exec .reset rdBench = .next rdBench.resetRegs ∧ Instr.reset ∉ [Instr.tb, .rdCtrl, .tb] ∧
    (nextOf (execAll [.tb, .rdCtrl, .tb] rdBench.resetRegs)).map timeTotal = some 2 :=
  ⟨rfl, by decide, by decide⟩

theorem witness_ConversionComplete :
    (convBench .wheelL true false).run = true ∧ bench.run = false := by decide

theorem witness_SwitchTest :
    (convBench .switches false false).run = true ∧ (convBench .switches false false).cur = .switches :=
  by decide

theorem witness_EdgeUpdateRule :
    ((convBench .wheelL true false).run = true ∧ (convBench .wheelL true false).autoenc = true ∧
      (convBench .wheelL true false).cur = .wheelL) ∧
    ((convBench .wheelR true false).run = true ∧ (convBench .wheelR true false).autoenc = true ∧
      (convBench .wheelR true false).cur = .wheelR) ∧
    (((convBench .wheelL true false).wheel .left).avg.toNat : Int) = 100 := by decide

theorem witness_TickThresholds :
    ((⟨100, .plus, 0⟩ : WheelState).sign = .plus ∧ ticksOn 412 ⟨100, .plus, 0⟩ = true ∧
      ticksOn 411 ⟨100, .plus, 0⟩ = false) ∧
    ((⟨100, .minus, 0⟩ : WheelState).sign = .minus ∧ ticksOn 387 ⟨100, .minus, 0⟩ = true ∧
      ticksOn 388 ⟨100, .minus, 0⟩ = false) ∧
    ((1020 : Raw).toNat / 4 = 255 ∧ (3 : Raw).toNat / 4 = 0) ∧
    ((0x7FFF : BitVec 16).toInt = 32767 ∧ ticksOn 300 ⟨50, .plus, 0x7FFF⟩ = true) ∧
    (800 : Raw).toNat / 4 = (803 : Raw).toNat / 4 := by decide

theorem witness_SignAlternates :
    (exec (.conv 600) (convBench .wheelR true false) =
        .next ((convBench .wheelR true false).completeConversion 600) ∧
      (((convBench .wheelR true false).completeConversion 600).wheel .right).sign ≠
        ((convBench .wheelR true false).wheel .right).sign) ∧
    (((convBench .wheelR true false).completeConversion 600).wheel .right).enc ≠
      ((convBench .wheelR true false).wheel .right).enc ∧
    (edgeUpdate 412 ⟨100, .plus, 5⟩).enc ≠ 5 ∧ (edgeUpdate 384 ⟨100, .minus, 5⟩).enc ≠ 5 ∧
    ticksOn 384 ⟨100, .minus, 5⟩ = true :=
  ⟨⟨rfl, by decide⟩, by decide, by decide, by decide, by decide⟩

theorem witness_CountersOnlyCountUp :
    (nextOf (execAll [.conv 600, .tb] (convBench .wheelL true false))).map (·.wheelL.enc) = some 1 ∧
    ∀ i ∈ [Instr.conv 600, .tb], i ≠ .reset ∧ ∀ v, i ≠ .wrEncL v ∧ i ≠ .wrEncR v :=
  ⟨by decide, by simp⟩

theorem witness_StaticSignal :
    (∀ n : Nat, ((fun _ => 403 : Nat → Raw) n).toNat / 4 = 100) ∧
    100 < (⟨200, .plus, 0⟩ : WheelState).avg.toNat ∧
    (⟨97, .plus, 0⟩ : WheelState).avg.toNat + 3 ≤ 100 ∧
    ((⟨98, .plus, 0⟩ : WheelState).avg.toNat ≤ 100 ∧
      100 ≤ (⟨98, .plus, 0⟩ : WheelState).avg.toNat + 2) ∧
    (⟨97, .plus, 0⟩ : WheelState).settledAt 100 ∧ ticksOn 403 ⟨97, .plus, 0⟩ = true :=
  ⟨fun _ => by show (403 : Raw).toNat / 4 = 100; decide, by decide, by decide, by decide,
    by unfold WheelState.settledAt; decide, by decide⟩

/-- The levels where two of the start ranges of R137 meet: at the level, one above it, and two and
three below. -/
theorem witness_StaticSignal_bounds :
    ((⟨100, .plus, 0⟩ : WheelState).avg.toNat ≤ 100 ∧
      100 ≤ (⟨100, .plus, 0⟩ : WheelState).avg.toNat + 2 ∧
      (⟨100, .plus, 0⟩ : WheelState).settledAt 100) ∧
    100 < (⟨101, .plus, 0⟩ : WheelState).avg.toNat ∧
    100 ≤ (⟨98, .plus, 0⟩ : WheelState).avg.toNat + 2 ∧
    (⟨97, .plus, 0⟩ : WheelState).avg.toNat + 3 ≤ 100 ∧
    (filterRun [403] ⟨101, .plus, 0⟩).avg = 100 ∧ (filterRun [403] ⟨100, .plus, 0⟩).avg = 100 := by
  unfold WheelState.settledAt
  decide

/-- Two periods of the wave of P5 (D = 10, six samples a level). -/
theorem witness_SquareWave_high :
    waveHeld 0 (0 + 10)
      [(List.replicate 6 40, List.replicate 6 0), (List.replicate 6 43, List.replicate 6 3)]
      ⟨0, .plus, 0⟩ := by
  simp only [waveHeld, atLevel, WheelState.settledAt]
  decide

/-- The heights where the ranges of R138 meet: D = 7, 6 and 3. -/
theorem witness_SquareWave_bounds :
    waveHeld 0 (0 + 7) [(List.replicate 4 28, List.replicate 4 0)] ⟨0, .plus, 0⟩ ∧
    waveHeld 0 (0 + 6) [(List.replicate 3 24, List.replicate 3 0)] ⟨0, .plus, 0⟩ ∧
    waveHeld 0 (0 + 3) [([12], [0])] ⟨0, .plus, 0⟩ ∧
    waveTicks [(List.replicate 4 28, List.replicate 4 0)] ⟨0, .plus, 0⟩ =
      [((true, 0), (true, 0))] ∧
    waveTicks [(List.replicate 3 24, List.replicate 3 0)] ⟨0, .plus, 0⟩ =
      [((true, 0), (false, 0))] := by
  simp only [waveHeld, atLevel, WheelState.settledAt]
  decide

theorem witness_SquareWave_middle :
    waveHeld 0 (0 + 5) [([20, 20], [0, 0]), ([20, 20], [0, 0])] ⟨0, .plus, 0⟩ := by
  simp only [waveHeld, atLevel, WheelState.settledAt]
  decide

theorem witness_SquareWave_low : waveHeld 0 (0 + 2) [([8], [0])] ⟨0, .plus, 0⟩ := by
  simp only [waveHeld, atLevel, WheelState.settledAt]
  decide

theorem witness_GateOffFreezesTheWheels :
    ((convBench .wheelL false false).autoenc = false ∧
      exec (.conv 600) (convBench .wheelL false false) =
        .next ((convBench .wheelL false false).completeConversion 600)) ∧
    (exec (.wrEncL 7) bench = .next (bench.setEnc .left 7) ∧
      (bench.setEnc .left 7).wheel .left ≠ bench.wheel .left) ∧
    (nextOf (execAll [.conv 600, .tb] (convBench .wheelL false false))).isSome = true ∧
    ∀ i ∈ [Instr.conv 600, .tb], i ≠ .reset ∧ ∀ v, i ≠ .wrCtrl v ∧ i ≠ .wrEncL v ∧ i ≠ .wrEncR v :=
  ⟨⟨rfl, rfl⟩, ⟨rfl, by decide⟩, by decide, by simp⟩

/-- EV_CONV on each channel class changes the fields it may write; so do the host's writes. -/
theorem witness_FieldsHaveTheirWriters :
    (exec (.conv 600) (convBench .wheelL true false) =
        .next ((convBench .wheelL true false).completeConversion 600) ∧
      (fun t : State => (t.samples, t.wheelL.avg, t.wheelL.sign, t.wheelL.enc, t.cur))
          ((convBench .wheelL true false).completeConversion 600) =
        (⟨600, 0, 0, 0, 0, 0⟩, 112, .minus, 1, .wheelR)) ∧
    ((convBench .switches true false).completeConversion 100).swp = true ∧
    (bench.writeCtrl 3).autoenc = true ∧ (bench.writeCtrl 3).run = true ∧
    (bench.tickTimeBase.tbTick ≠ bench.tbTick) := ⟨⟨rfl, by decide⟩, by decide⟩

theorem witness_CurChangesInThreeWays :
    exec (.conv 1) (convBench .battery true false) =
        .next ((convBench .battery true false).completeConversion 1) ∧
    (exec (.wrCtrl 2) { bench with cur := .irL } = .next ({ bench with cur := .irL }.writeCtrl 2) ∧
      bench.run = false ∧ (State.writeCtrl { bench with cur := .irL } 2).run = true ∧
      (State.writeCtrl { bench with cur := .irL } 2).cur ≠ .irL) ∧
    exec .reset rdBench = .next rdBench.resetRegs :=
  ⟨rfl, ⟨rfl, by decide⟩, rfl⟩

theorem witness_FaultsAreKept :
    exec .reset { bench with faulted := true } =
      .next (State.resetRegs { bench with faulted := true }) := rfl

theorem witness_MappedTransactionsNeverFault :
    exec (.wrEdge 5) bench = .next bench ∧ Instr.wrEdge 5 ≠ .rd15 ∧ ∀ v, Instr.wrEdge 5 ≠ .wr15 v :=
  ⟨rfl, by decide, by simp⟩

theorem witness_PulsesOncePerEvent :
    exec .tb bench = .next (bench.tickTimeBase.pulse .tbIrq) := rfl

theorem witness_StepKeepsParametersAndHistory :
    step { bench with schedule := [⟨.timeBase, 0x90000000⟩] } =
      .next ((State.beginStep
        { bench with schedule := [⟨.timeBase, 0x90000000⟩] }).tickTimeBase.pulse .tbIrq) := rfl

theorem witness_StepRunsTheDecodedTransaction :
    ({ bench with schedule := [⟨.host, 0x20000003⟩] } : State).schedule = ⟨.host, 0x20000003⟩ :: [] ∧
    decode 0x20000003 .host = .txn (.wrCtrl 3) := by decide

theorem witness_FreeChoiceStepsAnEnabledAgent : bench.schedule = [] := rfl

/-- A running state with a fault and a pulse on record meets the invariant, and steps. -/
theorem witness_StepKeepsInvariant :
    State.Inv
      { convBench .wheelL true false with
        faulted := true, faults := [.unmappedRegister (.write 0xF 3)]
        pulses := [⟨.tbIrq, 1⟩], stepIndex := 2
        schedule := [⟨.converter, 0x80000190⟩] } ∧
    (nextOf (step
      { convBench .wheelL true false with
        faulted := true, faults := [.unmappedRegister (.write 0xF 3)]
        pulses := [⟨.tbIrq, 1⟩], stepIndex := 2
        schedule := [⟨.converter, 0x80000190⟩] })).isSome = true := by
  refine ⟨⟨rfl, ⟨by decide, ?_⟩, by decide, by decide⟩, by decide⟩
  intro f hf
  exact .inr ⟨3, by simpa using hf⟩

theorem witness_EventsCommute :
    (nextOf (execAll [.tb, .conv 600] (convBench .wheelL true false))).isSome = true ∧
    (nextOf (execAll [.conv 600, .tb] (convBench .wheelL true false))).isSome = true := by decide

/-- A start and eight EV_CONV with a WR CTRL and an EV_TB among them. -/
theorem witness_ChannelSequence_and_SlotsAreFresh :
    isStart bench (.wrCtrl 3) = true ∧ exec (.wrCtrl 3) bench = .next (bench.writeCtrl 3) ∧
    noRestart [.conv 1, .conv 2, .tb, .conv 3, .conv 4, .wrCtrl 2, .conv 5, .conv 6, .conv 7, .conv 8]
      (bench.writeCtrl 3) = true ∧
    (nextOf (execAll
      [.conv 1, .conv 2, .tb, .conv 3, .conv 4, .wrCtrl 2, .conv 5, .conv 6, .conv 7, .conv 8]
      (bench.writeCtrl 3))).map (fun t => (t.run, t.cur, t.samples)) =
        some (true, .switches, ⟨7, 8, 3, 4, 5, 6⟩) := ⟨by decide, rfl, by decide, by decide⟩

/-- A start and two EV_CONV: the slots of the channels not yet completed hold what they held. -/
theorem witness_SlotsAreFresh_not_completed :
    isStart rdStopped (.wrCtrl 3) = true ∧
    exec (.wrCtrl 3) rdStopped = .next (rdStopped.writeCtrl 3) ∧
    noRestart [.conv 11, .tb, .conv 12] (rdStopped.writeCtrl 3) = true ∧
    (convResults [.conv 11, .tb, .conv 12]).length ≤ (channelCode .switches).toNat ∧
    (nextOf (execAll [.conv 11, .tb, .conv 12] (rdStopped.writeCtrl 3))).map (·.samples) =
      some ⟨11, 12, 3, 4, 5, 1023⟩ := ⟨by decide, rfl, by decide, by decide, by decide⟩

/-- Five EV_CONV bring STATUS.CUR to 5, one more takes it away. -/
theorem witness_FirstValidSamples :
    isStart bench (.wrCtrl 3) = true ∧ exec (.wrCtrl 3) bench = .next (bench.writeCtrl 3) ∧
    noRestart ([.conv 1, .conv 2, .conv 3, .conv 4, .conv 5] ++ [.conv 6]) (bench.writeCtrl 3) = true ∧
    (nextOf (execAll [.conv 1, .conv 2, .conv 3, .conv 4, .conv 5] (bench.writeCtrl 3))).map
      (fun u => ((view u .status).toNat / 2, (nextOf (execAll [.conv 6] u)).map
        (fun w => (view w .status).toNat / 2))) = some (5, some 0) :=
  ⟨by decide, rfl, by decide, by decide⟩

theorem witness_ReadThenResetLosesTick :
    ((convBench .wheelL true false).run = true ∧ (convBench .wheelL true false).autoenc = true ∧
      (convBench .wheelL true false).cur = .wheelL ∧
      ticksOn 600 ((convBench .wheelL true false).wheel .left) = true) ∧
    (convBench .wheelR true false).run = true ∧ (convBench .wheelR true false).autoenc = true ∧
    (convBench .wheelR true false).cur = .wheelR ∧
    ticksOn 600 ((convBench .wheelR true false).wheel .right) = true := by decide

theorem witness_ClosedGateSetsThePair :
    (∀ i ∈ [Instr.conv 600] ++ [.conv 600, .tb] ++ [.conv 0], i = .tb ∨ ∃ raw, i = .conv raw) ∧
    (nextOf (execAll (expand .encOff ++ [.conv 600] ++ [.wrEncL 7] ++ [.conv 600, .tb] ++
      [.wrEncR 9] ++ [.conv 0] ++ expand .encOn) (convBench .wheelL true false))).map
        (fun t => (t.wheelL.enc, t.wheelR.enc)) = some (7, 9) := ⟨by simp, by decide⟩

theorem witness_TimeWaitIsModulo256 :
    (1 ≤ 3 ∧ 3 ≤ 255) ∧
    (nextOf (execAll (List.replicate 3 .tb) { bench with tbTick := 0xFE })).map (·.tbTick) =
      some 1 := by decide

theorem witness_SafeTimeReading :
    Instr.reset ∉ [Instr.tb, .tb] ∧
    (nextOf (execAll [.tb, .tb] { bench with tbTick := 0xF0 })).map (·.tbElapsed) = some 0 ∧
    ([Instr.tb, .tb] ++ [Instr.tb, .tb]).count .tb ≤ 2 ^ 24 - 256 ∧
    (nextOf (execAll ([.tb, .tb] ++ [.tb, .tb]) { bench with tbTick := 0xF0 })).map
      (fun u => view u .tbElapsed) = some (view { bench with tbTick := 0xF0 } .tbElapsed) := by
  decide

/-- The run in which only the time base steps. -/
def tbRun (n : Nat) : State := (fun s => s.tickTimeBase.pulse .tbIrq)^[n] bench

theorem witness_FairTimeBaseEndsWaits :
    IsRun tbRun (fun _ => .tb) ∧ FairTb (fun _ => .tb) ∧ ((fun _ => .tb : Nat → Instr) 0 ≠ .reset) ∧
      (1 ≤ 255 ∧ 255 ≤ 255) := by
  refine ⟨fun n => ?_, fun n => ⟨n, Nat.le_refl n, rfl⟩, by decide, by decide⟩
  simp only [tbRun, Function.iterate_succ_apply']
  rfl

/-- The run in which only the converter steps. -/
def convRun (n : Nat) : State :=
  (fun s => s.completeConversion 5)^[n] (convBench .wheelL true false)

theorem convRun_run (n : Nat) : (convRun n).run = true := by
  induction n with
  | zero => rfl
  | succ n ih =>
    simp only [convRun, Function.iterate_succ_apply'] at ih ⊢
    rw [(completeConversion_fields _ _).2.2.2.2.2.1]
    exact ih

theorem witness_FairConverterReachesEveryChannel :
    IsRun convRun (fun _ => .conv 5) ∧ FairConv convRun (fun _ => .conv 5) ∧
      (∃ k, ∀ n, k ≤ n → (convRun n).run = true) ∧ (convRun 0).flightOk := by
  refine ⟨fun n => ?_, fun _ n => ⟨n, 5, Nat.le_refl n, rfl⟩, ⟨0, fun n _ => convRun_run n⟩, rfl⟩
  rw [exec_conv_of_run 5 (convRun_run n)]
  simp only [convRun, Function.iterate_succ_apply']

theorem witness_StartUpOrder : bench.run = false := rfl

/-- A wrap of TB_TICK by an offered word, and a RESET offered by the host. -/
theorem witness_EveryStepCountsTheTime :
    (nextOf (step
      { bench with tbTick := 0xFF, schedule := [⟨.timeBase, 0x90000000⟩] })).map timeTotal =
        some 256 ∧
    (nextOf (step
      { bench with tbTick := 0xFF, schedule := [⟨.host, 0xF0000000⟩] })).map timeTotal = some 0 := by
  decide

/-- A safe reading whose first pass a wrap tears. -/
theorem witness_TimeReadingIsOneMoment :
    (∀ gap ∈ [[], [Instr.tb], [], [], [], []], Instr.reset ∉ gap) ∧
    (timeReadCode.run [[], [.tb], [], [], [], []] [] { bench with tbTick := 0xFF }).map (·.1) =
      some [some 1, some 0, some 1, some 1, some 0, some 0] := by decide

theorem witness_WaitingHooksAreRefused :
    pseudoOk (.waitTb 255) = true ∧ pseudoOk (.poll (.number 15) 0 0) = true ∧
    waitsOnEvents (.waitTb 255) = true ∧ waitsOnEvents (.poll (.number 15) 0 0) = false ∧
    (∀ p ∈ [Pseudo.clrSw, .poll (.name .ctrl) 2 2], pseudoOk p = true) := by decide

theorem witness_AssemblerLines :
    ((0 : Int) ≤ 15 ∧ (15 : Int) ≤ 15 ∧ (-32768 : Int) ≤ -32768 ∧ (-32768 : Int) ≤ 65535) ∧
    ((0 : Int) ≤ 1023 ∧ (1023 : Int) ≤ 1023) ∧ ((15 : Int) < 16 ∧ (65535 : Int) < 65536) ∧
    assemble (.wr (.number 15) (-32768)) = some 0x2F008000 ∧ assemble (.conv 0) = some 0x80000000 := by
  decide

end Sys2Proof.Tests
end

/-! ### What a step keeps of the parameters, the schedule and the run's history -/

namespace Sys2Proof.Machine

/-- No transaction changes the OPEN parameters (R7) or the model's own schedule and step index. -/
theorem ExecShape.keeps_params_schedule_stepIndex {s t : State} (h : ExecShape s t) :
    t.params = s.params ∧ t.schedule = s.schedule ∧ t.stepIndex = s.stepIndex := by
  cases h with
  | conv raw _ => simp [completeConversion_fields]
  | value | readFault | ctrl | status | enc | same | writeFault | tick | reset => simp

/-- Only EV_CONV and EV_TB pulse, once each, with the running step's index (R184). -/
theorem ExecShape.pulses_cases {s t : State} (h : ExecShape s t) :
    t.pulses = s.pulses ∨ ∃ out, t.pulses = s.pulses ++ [⟨out, s.stepIndex⟩] := by
  cases h with
  | conv raw _ => exact .inr ⟨.convIrq, by simp [completeConversion_fields]⟩
  | tick => exact .inr ⟨.tbIrq, by simp⟩
  | value | readFault | ctrl | status | enc | same | writeFault | reset => exact .inl (by simp)

/-- Only the two unmapped accesses add to the fault list, one reason each (R37, R161). -/
theorem ExecShape.faults_cases {s t : State} (h : ExecShape s t) :
    t.faults = s.faults ∨ ∃ access, t.faults = s.faults ++ [.unmappedRegister access] := by
  cases h with
  | readFault => exact .inr ⟨.read 0xF, by simp⟩
  | writeFault v => exact .inr ⟨.write 0xF v, by simp⟩
  | conv raw _ => exact .inl (by simp [completeConversion_fields])
  | value | ctrl | status | enc | same | tick | reset => exact .inl (by simp)

/-- A step that takes place leaves one of the shapes of `exec` over the begun state (R66). -/
theorem execShape_of_step {s t : State} (h : step s = .next t) : ExecShape s.beginStep t :=
  let ⟨_, _, hexec⟩ := step_next_cases h
  exec_next_cases hexec

theorem exists_append_of_eq_or_append_singleton {α : Type} {l l' : List α}
    (h : l' = l ∨ ∃ x, l' = l ++ [x]) : ∃ more, l' = l ++ more ∧ more.length ≤ 1 := by
  obtain rfl | ⟨x, rfl⟩ := h
  · exact ⟨[], by simp⟩
  · exact ⟨[x], rfl, le_rfl⟩

/-- Settles O35: the begun state has taken one word and counted the step, and every shape of `exec`
over it keeps the rest and appends at most one pulse and one fault reason. -/
theorem stepKeepsParametersAndHistory : Obligations.StepKeepsParametersAndHistory := by
  intro s t h
  have shape := execShape_of_step h
  obtain ⟨hparams, hschedule, hindex⟩ := shape.keeps_params_schedule_stepIndex
  refine ⟨hparams, hschedule, hindex, ?_, ?_⟩
  · exact exists_append_of_eq_or_append_singleton
      (shape.pulses_cases.imp_right fun ⟨_, ho⟩ => ⟨_, ho⟩)
  · exact exists_append_of_eq_or_append_singleton
      (shape.faults_cases.imp_right fun ⟨_, hf⟩ => ⟨_, hf⟩)

end Sys2Proof.Machine

/-! ### What each transaction but RESET does, with the transaction named -/

namespace Sys2Proof.Machine

/-- The WR of a wheel's counter (R25). -/
def wrEncOf : Wheel → RegVal → Instr
  | .left, v => .wrEncL v
  | .right, v => .wrEncR v

/-- The next state a transaction but RESET leaves, with the transaction: that of a writer of R36, or
(`quiet`) one that differs in the reply and the fault record only, as a RD and a WR that writes no
register leave it (R65, R159, R161). -/
inductive TxnEffect (s : State) : Instr → State → Prop where
  | conv (raw : Raw) : TxnEffect s (.conv raw) (s.completeConversion raw)
  | tick : TxnEffect s .tb (s.tickTimeBase.pulse .tbIrq)
  | ctrl (v : RegVal) : TxnEffect s (.wrCtrl v) (s.writeCtrl v)
  | status (v : RegVal) : TxnEffect s (.wrStatus v) (s.writeStatus v)
  | enc (w : Wheel) (v : RegVal) : TxnEffect s (wrEncOf w v) (s.setEnc w v)
  | quiet (i : Instr) (reply : Option RegVal) (faulted : Bool) (faults : List Fault) :
      TxnEffect s i { s with reply := reply, faulted := faulted, faults := faults }

/-- EV_CONV takes place only while the converter runs (R110). -/
theorem run_and_eq_of_exec_conv {raw : Raw} {s t : State} (h : exec (.conv raw) s = .next t) :
    s.run = true ∧ t = s.completeConversion raw := by
  cases hrun : s.run
  · rw [exec_conv_of_stopped raw hrun] at h; cases h
  · rw [exec_conv_of_run raw hrun] at h; cases h; exact ⟨rfl, rfl⟩

theorem txnEffect_of_exec {i : Instr} {s t : State} (h : exec i s = .next t) (hr : i ≠ .reset) :
    TxnEffect s i t := by
  cases i
  case conv raw => obtain ⟨-, rfl⟩ := run_and_eq_of_exec_conv h; exact .conv raw
  case tb => cases h; exact .tick
  case wrCtrl v => cases h; exact .ctrl v
  case wrStatus v => cases h; exact .status v
  case wrEncL v => cases h; exact .enc .left v
  case wrEncR v => cases h; exact .enc .right v
  case reset => exact absurd rfl hr
  all_goals cases h; exact .quiet _ _ _ _

section Writers

variable {s t : State} {i : Instr}

/-- A wheel's state changes by the edge detector in an EV_CONV, or in its counter alone by the WR of
that counter (R36, R115, R158). -/
theorem TxnEffect.wheel_cases (e : TxnEffect s i t) (w : Wheel) :
    t.wheel w = s.wheel w ∨
    (∃ raw, i = .conv raw ∧ t.wheel w = edgeUpdate raw (s.wheel w)) ∨
    ∃ v, i = wrEncOf w v ∧ t.wheel w = { s.wheel w with enc := v } := by
  cases e with
  | conv raw =>
    rw [completeConversion_wheel]
    split
    · exact .inr (.inl ⟨raw, rfl, rfl⟩)
    · exact .inl rfl
  | enc w' v =>
    rw [State.setEnc, State.setWheel_wheel]
    split
    · next h => subst h; exact .inr (.inr ⟨v, rfl, rfl⟩)
    · exact .inl rfl
  | tick | ctrl | status | quiet => exact .inl (by cases w <;> simp)

theorem TxnEffect.samples_writer (e : TxnEffect s i t) (h : t.samples ≠ s.samples) :
    ∃ raw, i = .conv raw := by
  cases e with
  | conv raw => exact ⟨raw, rfl⟩
  | tick | ctrl | status | enc | quiet => simp at h

/-- Only EV_CONV moves a wheel's average or its sign (R36). -/
theorem TxnEffect.conv_or_avg_sign_eq (e : TxnEffect s i t) (w : Wheel) :
    (∃ raw, i = .conv raw) ∨
      ((t.wheel w).avg = (s.wheel w).avg ∧ (t.wheel w).sign = (s.wheel w).sign) := by
  obtain hw | ⟨raw, hi, -⟩ | ⟨v, -, hw⟩ := e.wheel_cases w
  · exact .inr (by simp [hw])
  · exact .inl ⟨raw, hi⟩
  · exact .inr (by simp [hw])

/-- A sample adds 1 to the counter or leaves it (R135). -/
theorem edgeUpdate_enc_cases (raw : Raw) (x : WheelState) :
    (edgeUpdate raw x).enc = x.enc + 1 ∨ (edgeUpdate raw x).enc = x.enc := by
  obtain ⟨-, hx⟩ | ⟨-, hx⟩ := edgeUpdate_cases raw x
  · exact .inl (by rw [hx]; rfl)
  · exact .inr (by rw [hx])

theorem TxnEffect.enc_writer (e : TxnEffect s i t) {w : Wheel}
    (h : (t.wheel w).enc ≠ (s.wheel w).enc) :
    (∃ raw, i = .conv raw ∧ (t.wheel w).enc = (s.wheel w).enc + 1) ∨
      ∃ v, i = wrEncOf w v ∧ (t.wheel w).enc = v := by
  obtain hw | ⟨raw, hi, hw⟩ | ⟨v, hi, hw⟩ := e.wheel_cases w
  · simp [hw] at h
  · rw [hw] at h ⊢
    exact .inl ⟨raw, hi, (edgeUpdate_enc_cases raw _).resolve_right h⟩
  · exact .inr ⟨v, hi, by rw [hw]⟩

/-- EV_CONV only sets SWP, and WR STATUS only clears it (R117, R157). -/
theorem TxnEffect.swp_writer (e : TxnEffect s i t) (h : t.swp ≠ s.swp) :
    (∃ raw, i = .conv raw ∧ t.swp = true) ∨ ∃ v, i = .wrStatus v ∧ t.swp = false := by
  cases e with
  | conv raw =>
    refine .inl ⟨raw, rfl, ?_⟩
    rw [completeConversion_swp] at h ⊢
    split at h
    · cases hs : s.swp <;> simp_all [swpAfterSample]
    · exact absurd rfl h
  | status v =>
    refine .inr ⟨v, rfl, ?_⟩
    cases hs : s.swp <;> simp_all [swpAfterWrite]
  | tick | ctrl | enc | quiet => simp at h

/-- Only WR CTRL changes the two bits of CTRL (R36). -/
theorem TxnEffect.wrCtrl_or_ctrl_eq (e : TxnEffect s i t) :
    (∃ v, i = .wrCtrl v) ∨ (t.autoenc = s.autoenc ∧ t.run = s.run) := by
  cases e with
  | ctrl v => exact .inl ⟨v, rfl⟩
  | conv => exact .inr (by simp [completeConversion_fields])
  | tick | status | enc | quiet => exact .inr (by simp)

/-- WR CTRL moves CUR only when it starts the rotation (R156). -/
theorem writeCtrl_cur_cases (s : State) (v : RegVal) :
    (s.writeCtrl v).cur = s.cur ∨
      s.run = false ∧ (s.writeCtrl v).run = true ∧ (s.writeCtrl v).cur = .wheelL := by
  obtain ⟨hs, -, ht⟩ | ⟨-, -, ht⟩ | ⟨-, ht⟩ := writeCtrl_cases s v
  · exact .inr ⟨hs, by simp [ht]⟩
  · exact .inl (by rw [ht])
  · exact .inl (by rw [ht])

theorem TxnEffect.cur_writer (e : TxnEffect s i t) (h : t.cur ≠ s.cur) :
    (∃ raw, i = .conv raw) ∨ ∃ v, i = .wrCtrl v ∧ s.run = false ∧ t.run = true := by
  cases e with
  | conv raw => exact .inl ⟨raw, rfl⟩
  | ctrl v =>
    obtain ⟨hs, ht, -⟩ := (writeCtrl_cur_cases s v).resolve_left h
    exact .inr ⟨v, rfl, hs, ht⟩
  | tick | status | enc | quiet => simp at h

/-- Only EV_TB moves the time base (R36). -/
theorem TxnEffect.tb_or_time_eq (e : TxnEffect s i t) :
    i = .tb ∨ (t.tbTick = s.tbTick ∧ t.tbElapsed = s.tbElapsed) := by
  cases e with
  | tick => exact .inl rfl
  | conv => exact .inr (by simp [completeConversion_fields])
  | ctrl | status | enc | quiet => exact .inr (by simp)

end Writers

/-- Settles O30: field by field, from what each transaction but RESET does. -/
theorem fieldsHaveTheirWriters : Obligations.FieldsHaveTheirWriters := by
  intro i s t h hr
  have e := txnEffect_of_exec h hr
  refine ⟨e.samples_writer,
    fun w hw => (e.conv_or_avg_sign_eq w).resolve_right fun ⟨havg, _⟩ => hw havg,
    fun w hw => (e.conv_or_avg_sign_eq w).resolve_right fun ⟨_, hsign⟩ => hw hsign,
    fun w hw => ?_, e.swp_writer,
    fun ha => e.wrCtrl_or_ctrl_eq.resolve_right fun ⟨hauto, _⟩ => ha hauto,
    fun hn => e.wrCtrl_or_ctrl_eq.resolve_right fun ⟨_, hrun⟩ => hn hrun, e.cur_writer,
    fun ht => e.tb_or_time_eq.resolve_right fun ⟨htick, _⟩ => ht htick,
    fun ht => e.tb_or_time_eq.resolve_right fun ⟨_, helapsed⟩ => ht helapsed⟩
  cases w <;> exact e.enc_writer hw

/-! ### The channel counter -/

theorem channelCode_toNat_le (c : Channel) : (channelCode c).toNat ≤ 5 := by cases c <;> decide

theorem channelCode_nextChannel (c : Channel) :
    (channelCode (nextChannel c)).toNat = ((channelCode c).toNat + 1) % 6 := by cases c <;> decide

/-- A WR CTRL that takes RUN from 0 to 1 starts the rotation at channel 0 (R156). -/
theorem writeCtrl_cur_of_start {s : State} {v : RegVal} (hs : s.run = false)
    (hv : (s.writeCtrl v).run = true) : (s.writeCtrl v).cur = .wheelL := by
  obtain ⟨-, -, ht⟩ | ⟨hrun, -, -⟩ | ⟨hrun, -⟩ := writeCtrl_cases s v
  · rw [ht]
  · exact absurd hrun (by simp [hs])
  · rw [State.writeCtrl_run, ← hrun, hs] at hv
    cases hv

/-- Settles O31: the three ways by their own laws, and that there is no other by the writers of
CUR. -/
theorem curChangesInThreeWays : Obligations.CurChangesInThreeWays := by
  refine ⟨fun s => channelCode_toNat_le s.cur, fun raw s t h => ?_, fun v s t h hs ht => ?_,
    fun s t h => ?_, fun i s t h hc => ?_⟩
  · obtain ⟨-, rfl⟩ := run_and_eq_of_exec_conv h
    simp only [completeConversion_fields, channelCode_nextChannel]
  · cases h; exact writeCtrl_cur_of_start hs ht
  · cases h; exact State.resetRegs_cur s
  · by_cases hr : i = .reset
    · exact .inr (.inr hr)
    · exact ((txnEffect_of_exec h hr).cur_writer hc).imp_right .inl

/-! ### The invariant of every step -/

/-- The fault record stays, or one access to r = 0xF is raised (R37, R161). -/
theorem ExecShape.faultRecord_cases {s t : State} (h : ExecShape s t) :
    (t.faulted = s.faulted ∧ t.faults = s.faults) ∨
    ∃ f, (f = .unmappedRegister (.read 0xF) ∨ ∃ v, f = .unmappedRegister (.write 0xF v)) ∧
      t.faulted = true ∧ t.faults = s.faults ++ [f] := by
  cases h with
  | readFault => exact .inr ⟨_, .inl rfl, by simp⟩
  | writeFault v => exact .inr ⟨_, .inr ⟨v, rfl⟩, by simp⟩
  | conv raw _ => exact .inl (by simp [completeConversion_fields])
  | value | ctrl | status | enc | same | tick | reset => exact .inl (by simp)

theorem ExecShape.keeps_faultRecordOk {s t : State} (h : ExecShape s t) (hs : s.faultRecordOk) :
    t.faultRecordOk := by
  obtain ⟨hmark, hreasons⟩ := hs
  obtain ⟨hf, hl⟩ | ⟨f, hacc, hf, hl⟩ := h.faultRecord_cases
  · exact ⟨by rw [hf, hl]; exact hmark, by rw [hl]; exact hreasons⟩
  · refine ⟨by simp [hf, hl], fun g hg => ?_⟩
    obtain hg | hg := List.mem_append.mp (hl ▸ hg)
    · exact hreasons g hg
    · exact List.mem_singleton.mp hg ▸ hacc

/-- A start puts channel 0 in flight, a stop empties it, and any other WR CTRL keeps RUN (R156). -/
theorem writeCtrl_flightOk {s : State} (hs : s.flightOk) (v : RegVal) :
    (s.writeCtrl v).flightOk := by
  obtain ⟨-, -, ht⟩ | ⟨-, -, ht⟩ | ⟨hrun, ht⟩ := writeCtrl_cases s v
  · simp [State.flightOk, ht]
  · simp [State.flightOk, ht]
  · rw [ht, ← hrun]; exact hs

theorem ExecShape.keeps_flightOk {s t : State} (h : ExecShape s t) (hs : s.flightOk) :
    t.flightOk := by
  cases h with
  | ctrl v => exact writeCtrl_flightOk hs v
  | conv raw hrun => simp [State.flightOk, completeConversion_fields, hrun]
  | reset => simp [State.flightOk]
  | enc w v => cases w <;> exact hs
  | value | readFault | status | same | writeFault | tick => exact hs

/-- Every pulse on record is older than the step just begun, so one more with its index keeps the
order (R184). -/
theorem ExecShape.keeps_pulsesOk {s t : State} (h : ExecShape s.beginStep t) (hs : s.pulsesOk) :
    t.pulsesOk := by
  obtain ⟨hordered, hpast⟩ := hs
  obtain ⟨-, -, hindex⟩ := h.keeps_params_schedule_stepIndex
  rw [State.beginStep_stepIndex] at hindex
  have hold : ∀ p ∈ s.pulses, p.step < s.stepIndex + 1 :=
    fun p hp => Nat.lt_succ_of_le (hpast p hp)
  unfold State.pulsesOk
  obtain hp | ⟨out, hp⟩ := h.pulses_cases
  · rw [hp, hindex]
    exact ⟨hordered, fun p hp => (hold p hp).le⟩
  · rw [hp, hindex]
    refine ⟨List.pairwise_append.mpr ⟨hordered, List.pairwise_singleton .., fun p hp q hq => ?_⟩,
      fun p hp => ?_⟩
    · exact List.mem_singleton.mp hq ▸ hold p hp
    · obtain hp | hp := List.mem_append.mp hp
      · exact (hold p hp).le
      · exact (List.mem_singleton.mp hp ▸ le_rfl)

/-- Settles O38: clause by clause, over the shapes a step can leave. -/
theorem stepKeepsInvariant : Obligations.StepKeepsInvariant := by
  intro s t ⟨hflight, hfaults, hpulses⟩ h
  have shape := execShape_of_step h
  exact ⟨shape.keeps_flightOk hflight, shape.keeps_faultRecordOk hfaults,
    shape.keeps_pulsesOk hpulses⟩

/-- Settles O39: at power-on RUN is 0 and both records are empty. -/
theorem powerOnMeetsInvariant : Obligations.PowerOnMeetsInvariant where
  flight := rfl
  faultRecord := by simp [State.faultRecordOk, State.reset]
  pulses := by simp [State.pulsesOk, State.reset]

/-- Settles O32: the fault record starts empty, and every transaction keeps it or raises one fault
on top of it. -/
theorem faultsAreKept : Obligations.FaultsAreKept := by
  refine ⟨rfl, rfl, fun s f => ⟨State.raiseFault_faulted s f, State.raiseFault_faults s f⟩,
    fun i s t h => ?_⟩
  obtain ⟨hf, hl⟩ | ⟨f, -, hf, hl⟩ := (exec_next_cases h).faultRecord_cases
  · exact ⟨fun hs => hf.trans hs, [], by rw [hl, List.append_nil]⟩
  · exact ⟨fun _ => hf, [f], hl⟩

/-! ### Reserved bits and read-only registers -/

/-- A field of `n` bits read in a wider register leaves the bits above it 0 (R26). -/
theorem toNat_setWidth_lt {n : Nat} (x : BitVec n) (m : Nat) : (x.setWidth m).toNat < 2 ^ n := by
  rw [BitVec.toNat_setWidth]
  exact (Nat.mod_le ..).trans_lt x.isLt

/-- WR CTRL reads AUTOENC and RUN in its data and nothing else (R156). -/
theorem writeCtrl_congr (s : State) {v u : RegVal} (ha : autoencBit v = autoencBit u)
    (hr : runBit v = runBit u) : s.writeCtrl v = s.writeCtrl u := by
  unfold State.writeCtrl startsRun stopsRun
  rw [ha, hr]

theorem writeStatus_congr (s : State) {v u : RegVal} (h : clearSwpBit v = clearSwpBit u) :
    s.writeStatus v = s.writeStatus u := by
  simp only [State.writeStatus, swpAfterWrite, h]

/-- Data that agree under a mask agree in each bit of it. -/
theorem getLsbD_eq_of_and_eq {v u m : RegVal} (h : v &&& m = u &&& m) {k : Nat}
    (hk : m.getLsbD k = true) : v.getLsbD k = u.getLsbD k := by
  simpa [hk] using congrArg (fun x => BitVec.getLsbD x k) h

/-- WR of a read-only register ends in the very same state (R26, R159). -/
theorem exec_wrOf_readOnly (s : State) (r : Reg) (v : RegVal) (h : accessRight r = .readOnly) :
    exec (wrOf (regNumber r) v) s = .next s := by
  cases r with
  | ctrl | status | enc => cases h
  | sample c => cases c <;> rfl
  | avg w => cases w <;> rfl
  | edge | tbTick | tbElapsed => rfl

/-- Settles O17: every view is a field of its own width, and a WR reads only the bits of the
writable fields. -/
theorem reservedBitsReadZero : Obligations.ReservedBitsReadZero := by
  refine ⟨fun s => ?_, fun s v u h => ?_, fun s v u h => ?_, exec_wrOf_readOnly⟩
  · exact ⟨toNat_setWidth_lt .., toNat_setWidth_lt .., fun _ => toNat_setWidth_lt ..,
      fun _ => toNat_setWidth_lt .., toNat_setWidth_lt .., toNat_setWidth_lt ..⟩
  · exact congrArg Host.Outcome.next
      (writeCtrl_congr s (getLsbD_eq_of_and_eq h (by decide)) (getLsbD_eq_of_and_eq h (by decide)))
  · exact congrArg Host.Outcome.next (writeStatus_congr s (getLsbD_eq_of_and_eq h (by decide)))

/-! ### EV_TB and EV_CONV in either order -/

/-- `s` with its time base and its history of pulses replaced: all that EV_TB writes (R101). -/
def State.withClock (s : State) (tick : BitVec 8) (elapsed : BitVec 16) (pulses : List Pulse) :
    State :=
  { s with tbTick := tick, tbElapsed := elapsed, pulses := pulses }

section Clock

variable (s : State) (a : BitVec 8) (b : BitVec 16) (ps : List Pulse)

theorem detectEdge_withClock (c : Channel) (raw : Raw) :
    (s.withClock a b ps).detectEdge c raw = (s.detectEdge c raw).withClock a b ps := by
  cases hw : wheelOf c with
  | none => rw [detectEdge_other _ c raw hw, detectEdge_other _ c raw hw]
  | some w =>
    rw [detectEdge_wheel _ c raw w hw, detectEdge_wheel _ c raw w hw]
    by_cases ha : s.autoenc = true
    · rw [if_pos ha]; cases w <;> exact if_pos ha
    · rw [if_neg ha]; exact if_neg ha

theorem testSwitch_withClock (c : Channel) (raw : Raw) :
    (s.withClock a b ps).testSwitch c raw = (s.testSwitch c raw).withClock a b ps := by
  unfold State.testSwitch
  split <;> rfl

theorem advance_pulse_withClock (c : Channel) (out : EventOut) :
    ((s.withClock a b ps).advance c).pulse out =
      ((s.advance c).pulse out).withClock a b (ps ++ [⟨out, s.stepIndex⟩]) := rfl

/-- EV_CONV neither reads nor writes the time base, and adds its pulse to whatever history there
is (R113). -/
theorem completeConversion_withClock (raw : Raw) :
    (s.withClock a b ps).completeConversion raw =
      (s.completeConversion raw).withClock a b (ps ++ [⟨.convIrq, s.stepIndex⟩]) := by
  have hcur : (s.withClock a b ps).cur = s.cur := rfl
  have hstore : (s.withClock a b ps).setSample s.cur raw =
      (s.setSample s.cur raw).withClock a b ps := rfl
  unfold State.completeConversion
  rw [hcur, hstore, detectEdge_withClock, testSwitch_withClock, advance_pulse_withClock]
  simp

end Clock

/-- EV_TB writes the time base and the history only (R101). -/
theorem tick_eq_withClock (s : State) : s.tickTimeBase.pulse .tbIrq =
    s.withClock s.tickTimeBase.tbTick s.tickTimeBase.tbElapsed
      (s.pulses ++ [⟨.tbIrq, s.stepIndex⟩]) := rfl

/-- The count of EV_TB depends on the time base only (R101). -/
theorem tickTimeBase_congr {s u : State} (ht : u.tbTick = s.tbTick)
    (he : u.tbElapsed = s.tbElapsed) :
    u.tickTimeBase.tbTick = s.tickTimeBase.tbTick ∧
      u.tickTimeBase.tbElapsed = s.tickTimeBase.tbElapsed := by
  unfold State.tickTimeBase
  exact ⟨by rw [ht], by rw [ht, he]⟩

/-- EV_TB before EV_CONV or after it: only the order of the two pulses differs (R67). -/
theorem completeConversion_tick (s : State) (raw : Raw) :
    (s.tickTimeBase.pulse .tbIrq).completeConversion raw =
      { (s.completeConversion raw).tickTimeBase.pulse .tbIrq with
        pulses := s.pulses ++ [⟨.tbIrq, s.stepIndex⟩] ++ [⟨.convIrq, s.stepIndex⟩] } := by
  obtain ⟨ht, he⟩ := tickTimeBase_congr (s := s) (u := s.completeConversion raw)
    (by simp [completeConversion_fields]) (by simp [completeConversion_fields])
  rw [tick_eq_withClock, tick_eq_withClock, completeConversion_withClock, ht, he]
  rfl

theorem execAll_pair_cases {i j : Instr} {s u : State} (h : execAll [i, j] s = .next u) :
    ∃ t, exec i s = .next t ∧ exec j t = .next u := by
  obtain ⟨t, hi, h⟩ := execAll_cons_cases h
  obtain ⟨u', hj, hnil⟩ := execAll_cons_cases h
  cases hnil
  exact ⟨t, hi, hj⟩

/-- No register shows the history of pulses (R184). -/
theorem view_setPulses (s : State) (ps : List Pulse) (r : Reg) :
    view { s with pulses := ps } r = view s r := by cases r <;> rfl

/-- Settles O40: EV_TB then EV_CONV leaves what EV_CONV then EV_TB leaves, but for the pulses. -/
theorem eventsCommute : Obligations.EventsCommute := by
  intro raw s t u ht hu
  obtain ⟨s₁, htick, hconv⟩ := execAll_pair_cases ht
  cases htick
  obtain ⟨-, rfl⟩ := run_and_eq_of_exec_conv hconv
  obtain ⟨s₂, hconv, htick⟩ := execAll_pair_cases hu
  obtain ⟨-, rfl⟩ := run_and_eq_of_exec_conv hconv
  cases htick
  rw [completeConversion_tick]
  exact ⟨view_setPulses _ _, rfl, rfl, rfl, rfl, rfl, rfl, rfl⟩

/-! ### Power-on -/

/-- With the parameters of power-on, RESET leaves the power-on state but for the fault record and
the model's own fields, which it keeps (R37, R160, R200). -/
theorem resetRegs_eq_reset {s : State} (h : s.params = State.reset.params) :
    s.resetRegs = { State.reset with
      faulted := s.faulted, faults := s.faults, pulses := s.pulses, reply := s.reply,
      stepIndex := s.stepIndex, schedule := s.schedule } := by
  simp only [State.resetRegs, State.abandonConversion, h]
  rfl

/-- EDGE holds one bit for each wheel's sign, 1 for -1 (R32). -/
theorem view_edge_eq_ofNat (s : State) :
    view s .edge = BitVec.ofNat 16
      (2 * (if s.wheelR.sign = .minus then 1 else 0) +
        (if s.wheelL.sign = .minus then 1 else 0)) := by
  unfold view
  cases s.wheelR.sign <;> cases s.wheelL.sign <;> rfl

theorem view_avg_toNat (s : State) (w : Wheel) :
    (view s (.avg w)).toNat = (s.wheel w).avg.toNat :=
  BitVec.toNat_setWidth_of_le (by decide)

/-- Only AVG_L, AVG_R and EDGE read a parameter at power-on (R39). -/
theorem view_reset_eq_zero {r : Reg} (hl : r ≠ .avg .left) (hr : r ≠ .avg .right)
    (he : r ≠ .edge) : view State.reset r = 0 := by
  cases r with
  | sample c => cases c <;> rfl
  | enc w => cases w <;> rfl
  | avg w =>
    cases w
    · exact absurd rfl hl
    · exact absurd rfl hr
  | edge => exact absurd rfl he
  | ctrl | status | tbTick | tbElapsed => rfl

/-- Settles O9: RESET with these parameters leaves the registers of power-on, each of which is read
off the power-on state. -/
theorem powerOnIsReset : Obligations.PowerOnIsReset := by
  refine ⟨fun s t hp h r => ?_, fun r => view_reset_eq_zero, fun w => ?_, fun w => ?_,
    view_edge_eq_ofNat _, rfl, rfl, rfl⟩
  · cases h
    rw [resetRegs_eq_reset hp]
    cases r <;> rfl
  · rw [view_avg_toNat]
    cases w <;> rfl
  · cases w <;> rfl

end Sys2Proof.Machine

/-! ### Bytes and words -/

namespace Sys2Proof

/-- The first byte is the lowest (R63). -/
theorem bytes_toNat (b0 b1 b2 b3 : Byte) :
    (b3 ++ b2 ++ b1 ++ b0).toNat =
      b0.toNat + 2 ^ 8 * b1.toNat + 2 ^ 16 * b2.toNat + 2 ^ 24 * b3.toNat := by
  simp only [BitVec.toNat_append]
  rw [← Nat.shiftLeft_add_eq_or_of_lt b2.isLt, ← Nat.shiftLeft_add_eq_or_of_lt b1.isLt,
    ← Nat.shiftLeft_add_eq_or_of_lt b0.isLt]
  simp only [Nat.shiftLeft_eq]
  omega

/-- Reading the bytes of a word gives the word back (R63). -/
theorem wordOfBytes_bytesOfWord (w : TxnWord) : wordOfBytes (bytesOfWord w) = some w := by
  refine congrArg some (BitVec.eq_of_toNat_eq ?_)
  rw [bytes_toNat]
  simp only [BitVec.extractLsb'_toNat, Nat.shiftRight_eq_div_pow]
  have := w.isLt
  omega

/-- Any other number of bytes is not one word (R88). -/
theorem wordOfBytes_of_length_ne {bs : List Byte} (h : bs.length ≠ 4) : wordOfBytes bs = none := by
  unfold wordOfBytes
  split
  · exact absurd rfl h
  · rfl

theorem decodeBytes_of_word {bs : List Byte} {w : TxnWord} (h : wordOfBytes bs = some w)
    (a : Agent) : decodeBytes bs a = decode w a := by rw [decodeBytes, h]

theorem decodeBytes_of_none {bs : List Byte} (h : wordOfBytes bs = none) (a : Agent) :
    decodeBytes bs a = .refuse .notOneWord := by rw [decodeBytes, h]

/-- Settles O6: `decodeBytes` decodes the word of the bytes, whose number is the little-endian sum;
there is no such word unless the bytes are four. -/
theorem bytesAreLittleEndian : Obligations.BytesAreLittleEndian := by
  refine ⟨fun b0 b1 b2 b3 a => ?_, fun w a => decodeBytes_of_word (wordOfBytes_bytesOfWord w) a,
    fun bs a h => decodeBytes_of_none (wordOfBytes_of_length_ne h) a⟩
  rw [← bytes_toNat, BitVec.ofNat_toNat]
  exact decodeBytes_of_word (by simp [wordOfBytes]) a

/-! ### The decoder reads what the encoder wrote -/

/-- A word is made of its four fields in one way only (R81). -/
theorem fields_of_toNat {w : TxnWord} {o : BitVec 4} {r : RegNum} {z : BitVec 8} {d : RegVal}
    (h : w.toNat = o.toNat * 2 ^ 28 + r.toNat * 2 ^ 24 + z.toNat * 2 ^ 16 + d.toNat) :
    opField w = o ∧ regField w = r ∧ rsvField w = z ∧ dataField w = d := by
  have := r.isLt
  have := z.isLt
  have := d.isLt
  refine ⟨BitVec.eq_of_toNat_eq ?_, BitVec.eq_of_toNat_eq ?_, BitVec.eq_of_toNat_eq ?_,
    BitVec.eq_of_toNat_eq ?_⟩
  · rw [opField_toNat]; omega
  · rw [regField_toNat]; omega
  · rw [rsvField_toNat]; omega
  · rw [dataField_toNat]; omega

/-- A WR word spells the WR of its register with its data (R82, R86). -/
theorem decodeWord_encodeWr (r : RegNum) (v : RegVal) :
    decodeWord (encodeWr r v) = some (wrOf r v) := by
  obtain ⟨hop, hreg, hrsv, hdata⟩ := fields_of_toNat (w := encodeWr r v)
    (fields_toNat 0x2 r 0 v)
  simp [decodeWord, hop, hreg, hrsv, hdata]

/-- An EV_CONV word spells EV_CONV with its result (R82, R86). -/
theorem decodeWord_encodeConv (raw : Raw) : decodeWord (encodeConv raw) = some (.conv raw) := by
  have hraw : (raw.setWidth 16).toNat = raw.toNat := BitVec.toNat_setWidth_of_le (by decide)
  obtain ⟨hop, hreg, hrsv, hdata⟩ := fields_of_toNat (w := encodeConv raw)
    (o := 0x8) (r := 0) (z := 0) (d := raw.setWidth 16) (by rw [encodeConv_toNat, hraw]; simp)
  have hhigh : rawHighField (raw.setWidth 16) = 0 :=
    BitVec.eq_of_toNat_eq (by rw [rawHighField_toNat, hraw]; exact Nat.div_eq_of_lt raw.isLt)
  have hlow : rawField (raw.setWidth 16) = raw :=
    BitVec.eq_of_toNat_eq (by rw [rawField_toNat, hraw]; exact Nat.mod_eq_of_lt raw.isLt)
  simp [decodeWord, hop, hreg, hrsv, hdata, hhigh, hlow]

/-- A transaction's word spells that transaction (R82, R86). -/
theorem decodeWord_encode (i : Instr) : decodeWord (encode i) = some i := by
  cases i
  case conv raw => exact decodeWord_encodeConv raw
  case tb | reset => rfl
  case rdCtrl | rdStatus | rdSample0 | rdSample1 | rdSample2 | rdSample3 | rdSample4 | rdSample5
    | rdEncL | rdEncR | rdAvgL | rdAvgR | rdEdge | rdTbTick | rdTbElapsed | rd15 => rfl
  all_goals exact decodeWord_encodeWr _ _

/-- An agent's own transaction decodes from its word (R85, R86). -/
theorem decode_encode_of_wellFormed {i : Instr} {a : Agent} (h : i.wellFormed a = true) :
    decode (encode i) a = .txn i := by rw [decode_of_word (decodeWord_encode i), if_pos h]

theorem decode_encode_issuer (i : Instr) : decode (encode i) i.issuer = .txn i :=
  decode_encode_of_wellFormed (beq_self_eq_true i.issuer)

end Sys2Proof

/-! ### The step of the offered word, and of the free choice -/

namespace Sys2Proof.Machine

/-- A step runs the transaction that the offered word decodes to (R66, R86). -/
theorem step_of_decode {s : State} {i : Instr}
    (h : decode s.offered.word s.offered.agent = .txn i) : step s = exec i s.beginStep := by
  rw [step, h]

theorem offered_of_cons {s : State} {o : Offer} {rest : List Offer} (h : s.schedule = o :: rest) :
    s.offered = o := by rw [State.offered, h]

theorem offered_of_nil {s : State} (h : s.schedule = []) :
    s.offered = ⟨s.freeTxn.issuer, encode s.freeTxn⟩ := by rw [State.offered, h]

/-- Settles O36: the offered word is the first of the schedule, and the begun state is the one
written out. -/
theorem stepRunsTheDecodedTransaction : Obligations.StepRunsTheDecodedTransaction := by
  intro s o rest i hs hd
  rw [step_of_decode (by rw [offered_of_cons hs]; exact hd), State.beginStep, hs, List.tail_cons]

/-- What is drawn is a transaction of an enabled agent (R185). -/
theorem enabled_freeTxn (s : State) : s.enabled s.freeTxn = true := by
  unfold State.freeTxn
  split
  · assumption
  · rfl

theorem enabled_beginStep (s : State) (i : Instr) : s.beginStep.enabled i = s.enabled i := by
  cases i <;> rfl

/-- A transaction its agent can take completes: only an EV_CONV can be refused, while RUN = 0
(R110). -/
theorem exists_next_of_enabled {i : Instr} {s : State} (h : s.enabled i = true) :
    ∃ t, exec i s = .next t := by
  cases i
  case conv raw => exact ⟨_, exec_conv_of_run raw h⟩
  all_goals exact ⟨_, rfl⟩

/-- Settles O37: the drawn transaction is enabled, decodes from its own word and completes in the
begun state. -/
theorem freeChoiceStepsAnEnabledAgent : Obligations.FreeChoiceStepsAnEnabledAgent := by
  intro s hs
  have henabled := enabled_freeTxn s
  obtain ⟨t, ht⟩ := exists_next_of_enabled ((enabled_beginStep s s.freeTxn).trans henabled)
  have hstep : step s = exec s.freeTxn s.beginStep :=
    step_of_decode (by rw [offered_of_nil hs]; exact decode_encode_issuer s.freeTxn)
  refine ⟨s.freeTxn, t, henabled, hstep.trans ht, ?_⟩
  rwa [State.beginStep, hs, List.tail_nil, ← hs] at ht

/-! ### Accesses taken twice -/

/-- A WR CTRL of the bits already there neither starts nor stops the rotation (R156). -/
theorem writeCtrl_of_same {s : State} {v : RegVal} (ha : s.autoenc = autoencBit v)
    (hr : s.run = runBit v) : s.writeCtrl v = s := by
  obtain ⟨hs, hv, -⟩ | ⟨hs, hv, -⟩ | ⟨-, ht⟩ := writeCtrl_cases s v
  · exact absurd (hs.symm.trans (hr.trans hv)) (by decide)
  · exact absurd (hs.symm.trans (hr.trans hv)) (by decide)
  · rw [ht, ← ha, ← hr]

theorem writeCtrl_idem (s : State) (v : RegVal) : (s.writeCtrl v).writeCtrl v = s.writeCtrl v :=
  writeCtrl_of_same (State.writeCtrl_autoenc s v) (State.writeCtrl_run s v)

/-- A clear of a cleared SWP changes nothing (R157). -/
theorem writeStatus_idem (s : State) (v : RegVal) :
    (s.writeStatus v).writeStatus v = s.writeStatus v := by
  simp [State.writeStatus, swpAfterWrite]

theorem setEnc_idem (s : State) (w : Wheel) (v : RegVal) :
    (s.setEnc w v).setEnc w v = s.setEnc w v := by cases w <;> rfl

/-- A WR taken again in the state it left changes nothing (R65). -/
theorem exec_wrOf_idem {r : Reg} {v : RegVal} {s t : State}
    (h : exec (wrOf (regNumber r) v) s = .next t) : exec (wrOf (regNumber r) v) t = .next t := by
  cases r with
  | ctrl => cases h; exact congrArg Host.Outcome.next (writeCtrl_idem s v)
  | status => cases h; exact congrArg Host.Outcome.next (writeStatus_idem s v)
  | enc w => cases w <;> cases h <;> exact congrArg Host.Outcome.next (setEnc_idem s _ v)
  | sample | avg | edge | tbTick | tbElapsed => exact exec_wrOf_readOnly t _ v rfl

/-- Settles O12: a RD returns the register's view, which the value returned does not touch; a WR is
idempotent operation by operation. -/
theorem accessesAreIdempotent : Obligations.AccessesAreIdempotent := by
  refine ⟨fun r s => ⟨view s r, exec_rdOf_regNumber r s, fun t h => ?_⟩,
    fun r v s t => exec_wrOf_idem, fun r v s => exec_wrOf_readOnly s r v⟩
  rw [exec_rdOf_regNumber] at h
  cases h
  rw [exec_rdOf_regNumber, State.returnValue, view_setReply]
  rfl

end Sys2Proof.Machine

/-! ### The words that decode -/

namespace Sys2Proof

/-- Settles O2: a transaction's word spells that transaction, and its own agent may issue it. -/
theorem decodeOfEncode : Obligations.DecodeOfEncode := fun _ _ => decode_encode_of_wellFormed

/-- The words that spell a transaction, and which: RSV is 0, and OP, REG and DATA are of one of the
formats (R82, R86). -/
theorem decodeWord_eq_some_iff (w : TxnWord) (i : Instr) :
    decodeWord w = some i ↔ rsvField w = 0 ∧
      (((opField w).toNat = 0x1 ∧ dataField w = 0) ∧ rdOf (regField w) = i ∨
       (opField w).toNat = 0x2 ∧ wrOf (regField w) (dataField w) = i ∨
       ((opField w).toNat = 0x8 ∧ regField w = 0 ∧ rawHighField (dataField w) = 0) ∧
          .conv (rawField (dataField w)) = i ∨
       ((opField w).toNat = 0x9 ∧ regField w = 0 ∧ dataField w = 0) ∧ .tb = i ∨
       ((opField w).toNat = 0xF ∧ regField w = 0 ∧ dataField w = 0) ∧ .reset = i) := by
  unfold decodeWord
  by_cases hz : rsvField w = 0
  · rw [if_neg (not_not.mpr hz)]
    split <;> simp_all [ite_eq_iff, and_assoc]
  · simp only [if_pos hz, hz, false_and, reduceCtorEq]

theorem encode_rdOf (r : RegNum) : encode (rdOf r) = encodeRd r := by
  revert r; decide

theorem encode_wrOf (r : RegNum) (v : RegVal) : encode (wrOf r v) = encodeWr r v := by
  obtain ⟨n⟩ := r
  fin_cases n <;> rfl

/-- A word is the sum of its fields, each in its place (R81). -/
theorem toNat_eq_fields (w : TxnWord) : w.toNat = (opField w).toNat * 2 ^ 28 +
    (regField w).toNat * 2 ^ 24 + (rsvField w).toNat * 2 ^ 16 + (dataField w).toNat := by
  rw [opField_toNat, regField_toNat, rsvField_toNat, dataField_toNat]
  omega

/-- A result with the bits above it zero is the whole of DATA (R82, R83). -/
theorem rawField_toNat_of_high {d : RegVal} (h : rawHighField d = 0) :
    (rawField d).toNat = d.toNat := by
  have hhigh := congrArg BitVec.toNat h
  rw [rawHighField_toNat] at hhigh
  rw [rawField_toNat, Nat.mod_eq_of_lt ((Nat.div_eq_zero_iff_lt (by decide)).mp hhigh)]

/-- A word that spells a transaction is that transaction's word (R82, R86). -/
theorem encode_of_decodeWord {w : TxnWord} {i : Instr} (h : decodeWord w = some i) :
    encode i = w := by
  obtain ⟨hz, h⟩ := (decodeWord_eq_some_iff w i).mp h
  apply BitVec.eq_of_toNat_eq
  rw [toNat_eq_fields w, hz]
  obtain ⟨⟨ho, hd⟩, rfl⟩ | ⟨ho, rfl⟩ | ⟨⟨ho, hr, hh⟩, rfl⟩ | ⟨⟨ho, hr, hd⟩, rfl⟩ |
    ⟨⟨ho, hr, hd⟩, rfl⟩ := h
  · rw [encode_rdOf, encodeRd_toNat, ho, hd]; simp
  · rw [encode_wrOf, encodeWr_toNat, ho]; simp
  · rw [encode, encodeConv_toNat, rawField_toNat_of_high hh, ho, hr]; simp
  · rw [ho, hr, hd]; rfl
  · rw [ho, hr, hd]; rfl

theorem decode_eq_txn_iff {w : TxnWord} {a : Agent} {i : Instr} :
    decode w a = .txn i ↔ decodeWord w = some i ∧ i.wellFormed a = true := by
  obtain ⟨hw, hd⟩ | ⟨j, hw, hj, hd⟩ | ⟨j, hw, hj, hd⟩ := decode_cases w a <;> rw [hw, hd]
  · simp only [reduceCtorEq, false_and]
  · simp only [Option.some.injEq, Decoded.txn.injEq]
    exact ⟨fun h => ⟨h, h ▸ hj⟩, And.left⟩
  · simp only [Option.some.injEq, reduceCtorEq, false_iff, not_and]
    rintro rfl
    simp [hj]

/-- Settles O3: what decodes is spelled by the word, which the encoder gives back. -/
theorem decodedWordsAreEncodings : Obligations.DecodedWordsAreEncodings := by
  intro w a i h
  obtain ⟨hw, hi⟩ := decode_eq_txn_iff.mp h
  exact ⟨encode_of_decodeWord hw, hi⟩

/-! ### The words that are refused -/

theorem decode_eq_reserved_iff {w : TxnWord} {a : Agent} :
    decode w a = .refuse .reservedEncoding ↔ decodeWord w = none := by
  obtain ⟨hw, hd⟩ | ⟨i, hw, -, hd⟩ | ⟨i, hw, -, hd⟩ := decode_cases w a <;> simp [hw, hd]

/-- The reserved words, by their fields as numbers (R93). -/
theorem decodeWord_eq_none_iff (w : TxnWord) :
    decodeWord w = none ↔
      w.toNat / 2 ^ 28 ∉ [0x1, 0x2, 0x8, 0x9, 0xF] ∨
      w.toNat / 2 ^ 16 % 2 ^ 8 ≠ 0 ∨
      (w.toNat / 2 ^ 28 = 0x1 ∧ w.toNat % 2 ^ 16 ≠ 0) ∨
      (w.toNat / 2 ^ 28 = 0x8 ∧ (w.toNat / 2 ^ 24 % 2 ^ 4 ≠ 0 ∨ w.toNat / 2 ^ 10 % 2 ^ 6 ≠ 0)) ∨
      ((w.toNat / 2 ^ 28 = 0x9 ∨ w.toNat / 2 ^ 28 = 0xF) ∧
        (w.toNat / 2 ^ 24 % 2 ^ 4 ≠ 0 ∨ w.toNat % 2 ^ 16 ≠ 0)) := by
  rw [Option.eq_none_iff_forall_ne_some, ← not_exists]
  simp only [decodeWord_eq_some_iff, exists_and_left, exists_or, exists_eq', and_true]
  simp only [← BitVec.toNat_inj, opField_toNat, rsvField_toNat, regField_toNat, dataField_toNat,
    rawHighField_toNat, BitVec.ofNat_eq_ofNat, BitVec.toNat_ofNat, List.mem_cons, List.not_mem_nil,
    or_false]
  omega

theorem decode_eq_wrongAgent {w : TxnWord} {a : Agent} {i : Instr} (h : decodeWord w = some i)
    (ha : i.issuer ≠ a) : decode w a = .refuse .wrongAgent := by
  have hwf : ¬ i.wellFormed a = true := fun hi => ha (eq_of_beq hi)
  rw [decode_of_word h, if_neg hwf]

theorem wrOf_issuer (r : RegNum) (v : RegVal) : (wrOf r v).issuer = .host := by
  unfold wrOf
  split <;> rfl

end Sys2Proof

namespace Sys2Proof.Machine

/-- An offered word that the decoder refuses is no step (R85, R93). -/
theorem step_of_refuse {s : State} {o : Offer} {rest : List Offer} {r : DecodeRefusal}
    (hs : s.schedule = o :: rest) (hd : decode o.word o.agent = .refuse r) :
    step s = .refused (refusalOf o r) := by rw [step, offered_of_cons hs, hd]

/-- Settles O4: the decoder refuses a word as reserved where it spells no transaction, and the step
ends in the decoder's refusal. -/
theorem reservedWordsAreRefused : Obligations.ReservedWordsAreRefused :=
  ⟨fun w _ => decode_eq_reserved_iff.trans (decodeWord_eq_none_iff w),
    fun _ => decode_eq_reserved_iff.mpr rfl, fun _ _ _ _ => step_of_refuse⟩

/-- Settles O5: the transaction that the word spells has one issuer only, and the step ends in the
decoder's refusal. -/
theorem otherAgentsWordsAreRefused : Obligations.OtherAgentsWordsAreRefused := by
  refine ⟨fun w a b i h hb => ?_, fun raw => ?_, fun r v => ?_, fun _ _ _ _ => step_of_refuse⟩
  · obtain ⟨hw, hi⟩ := decode_eq_txn_iff.mp h
    have hissuer : i.issuer = a := eq_of_beq hi
    exact decode_eq_wrongAgent hw (hissuer ▸ hb.symm)
  · exact decode_eq_wrongAgent (decodeWord_encodeConv raw) nofun
  · exact decode_eq_wrongAgent (decodeWord_encodeWr r v) (by rw [wrOf_issuer]; decide)

end Sys2Proof.Machine

/-! ### The opcode table -/

namespace Sys2Proof

/-- Two rows that ask for different values of a bit under both masks share no word (R87). -/
theorem matches_eq_false_of_conflict {p q : TableRow}
    (h : p.pattern &&& q.mask ≠ q.pattern &&& p.mask) (w : TxnWord) (hp : p.matches w = true) :
    q.matches w = false := by
  refine beq_eq_false_iff_ne.mpr fun hq => h ?_
  calc p.pattern &&& q.mask = w &&& p.mask &&& q.mask := by rw [eq_of_beq hp]
    _ = w &&& q.mask &&& p.mask := by ac_rfl
    _ = q.pattern &&& p.mask := by rw [hq]

theorem opcodeTable_rows_conflict :
    opcodeTable.Pairwise fun p q => p.pattern &&& q.mask ≠ q.pattern &&& p.mask := by decide

/-- Every transaction's word belongs to its row of the table (R87). -/
theorem tableRow_statement (i : Instr) : Laws.TableRow.Statement i :=
  open Laws.TableRow in
  i.rec rdCtrl rdStatus rdSample0 rdSample1 rdSample2 rdSample3 rdSample4 rdSample5 rdEncL rdEncR
    rdAvgL rdAvgR rdEdge rdTbTick rdTbElapsed rd15 wrCtrl wrStatus wrSample0 wrSample1 wrSample2
    wrSample3 wrSample4 wrSample5 wrEncL wrEncR wrAvgL wrAvgR wrEdge wrTbTick wrTbElapsed wr15 conv
    tb reset

/-- Settles O7: the rows conflict pairwise, and a word that spells a transaction matches the row of
that transaction. -/
theorem opcodeRowsAreDisjoint : Obligations.OpcodeRowsAreDisjoint := by
  refine ⟨rfl, opcodeTable_rows_conflict.imp matches_eq_false_of_conflict, fun w a hnone => ?_⟩
  cases hw : decodeWord w with
  | none => exact decode_of_reserved hw a
  | some i =>
    obtain ⟨hmatch, hmem⟩ := tableRow_statement i
    rw [encode_of_decodeWord hw, hnone _ hmem] at hmatch
    cases hmatch

end Sys2Proof

/-! ### Waiting for the time base -/

namespace Sys2Proof.Machine

theorem tickTimeBase_tbTick_toNat (s : State) :
    s.tickTimeBase.tbTick.toNat = (s.tbTick.toNat + 1) % 256 := by
  simp only [State.tickTimeBase, wrap, BitVec.toNat_ofInt]
  omega

/-- TB_TICK counts EV_TB modulo 2^8 (R101). -/
theorem tbTick_toNat_of_execAll_replicate {k : Nat} {s t : State}
    (h : execAll (List.replicate k .tb) s = .next t) :
    t.tbTick.toNat = (s.tbTick.toNat + k) % 256 := by
  induction k generalizing s with
  | zero => cases h; exact (Nat.mod_eq_of_lt (BitVec.isLt _)).symm
  | succ k ih =>
    have htick : (s.tickTimeBase.pulse .tbIrq).tbTick.toNat = (s.tbTick.toNat + 1) % 256 :=
      tickTimeBase_tbTick_toNat s
    rw [ih h, htick]
    omega

/-- WAITTB leaves its loop when the readings are at least `n` apart modulo 2^8 (R96). -/
theorem waitTbDone_iff (n : Nat) (t0 t : RegVal) :
    waitTbDone n t0 t = true ↔ (n : Int) ≤ ((t.toNat : Int) - t0.toNat) % 256 := by
  simp only [waitTbDone, wrap, BitVec.toNat_ofInt, Bool.not_eq_true', decide_eq_false_iff_not]
  omega

theorem view_tbTick_toNat (s : State) : (view s .tbTick).toNat = s.tbTick.toNat :=
  BitVec.toNat_setWidth_of_le (by decide)

/-- Settles O46: the two readings are k apart modulo 256. -/
theorem timeWaitIsModulo256 : Obligations.TimeWaitIsModulo256 := by
  intro s t n k _ _ h
  rw [waitTbDone_iff, view_tbTick_toNat, view_tbTick_toNat, tbTick_toNat_of_execAll_replicate h]
  omega

/-! ### Assembler lines -/

theorem assemble_rd (r : RegOperand) : assemble (.rd r) =
    if regOperandOk r then some (encodeRd (operandNumber r)) else none := by
  rw [← encode_rdOf]; rfl

theorem assemble_wr (r : RegOperand) (imm : Int) : assemble (.wr r imm) =
    if regOperandOk r && immOk imm then some (encodeWr (operandNumber r) (wrap 16 imm))
    else none := by
  rw [← encode_wrOf]; rfl

theorem assemble_conv (raw : Int) : assemble (.conv raw) =
    if rawOk raw then some (encodeConv (wrap 10 raw)) else none := rfl

theorem regOperandOk_number_iff (n : Int) : regOperandOk (.number n) = true ↔ 0 ≤ n ∧ n ≤ 15 := by
  simp [regOperandOk]

theorem immOk_iff (imm : Int) : immOk imm = true ↔ -32768 ≤ imm ∧ imm ≤ 65535 := by
  simp [immOk]

theorem rawOk_iff (raw : Int) : rawOk raw = true ↔ 0 ≤ raw ∧ raw ≤ 1023 := by
  simp [rawOk]

/-- `wrap_N(v)` is v modulo 2^N (R9). -/
theorem wrap_toNat (n : Nat) (v : Int) : ((wrap n v).toNat : Int) = v % 2 ^ n := by
  simpa [wrap] using Int.emod_nonneg v (by positivity)

theorem eq_ofInt_of_toNat {w : TxnWord} {v : Int} (h : (w.toNat : Int) = v) :
    w = BitVec.ofInt 32 v := by simp [← h]

/-- A register's name and its number are the same operand (R25, R94). -/
theorem operandNumber_regNumber (r : Reg) :
    operandNumber (.number (regNumber r).toNat) = operandNumber (.name r) := by
  simp [operandNumber, wrap]

theorem regOperandOk_regNumber (r : Reg) :
    regOperandOk (.number (regNumber r).toNat) = regOperandOk (.name r) :=
  (regOperandOk_number_iff _).mpr (by have := (regNumber r).isLt; omega)

theorem assemble_rd_number {n : Int} (h : 0 ≤ n ∧ n ≤ 15) :
    assemble (.rd (.number n)) = some (BitVec.ofInt 32 (0x10000000 + n * 2 ^ 24)) := by
  rw [assemble_rd, if_pos ((regOperandOk_number_iff n).mpr h)]
  refine congrArg some (eq_ofInt_of_toNat ?_)
  have hn := wrap_toNat 4 n
  rw [encodeRd_toNat, operandNumber]
  omega

theorem assemble_wr_number {n imm : Int} (h : 0 ≤ n ∧ n ≤ 15) (hi : -32768 ≤ imm ∧ imm ≤ 65535) :
    assemble (.wr (.number n) imm) =
      some (BitVec.ofInt 32 (0x20000000 + n * 2 ^ 24 + imm % 2 ^ 16)) := by
  rw [assemble_wr, (regOperandOk_number_iff n).mpr h, (immOk_iff imm).mpr hi]
  refine congrArg some (eq_ofInt_of_toNat ?_)
  have hn := wrap_toNat 4 n
  have himm := wrap_toNat 16 imm
  rw [encodeWr_toNat, operandNumber]
  omega

theorem assemble_conv_of_ok {raw : Int} (h : 0 ≤ raw ∧ raw ≤ 1023) :
    assemble (.conv raw) = some (BitVec.ofInt 32 (0x80000000 + raw)) := by
  rw [assemble_conv, if_pos ((rawOk_iff raw).mpr h)]
  refine congrArg some (eq_ofInt_of_toNat ?_)
  have hraw := wrap_toNat 10 raw
  rw [encodeConv_toNat]
  omega

theorem regOperandOk_number_of_out {n : Int} (h : n < 0 ∨ 15 < n) :
    regOperandOk (.number n) = false := by
  rw [Bool.eq_false_iff, ne_eq, regOperandOk_number_iff]
  omega

theorem immOk_of_out {imm : Int} (h : imm < -32768 ∨ 65535 < imm) : immOk imm = false := by
  rw [Bool.eq_false_iff, ne_eq, immOk_iff]
  omega

theorem rawOk_of_out {raw : Int} (h : raw < 0 ∨ 1023 < raw) : rawOk raw = false := by
  rw [Bool.eq_false_iff, ne_eq, rawOk_iff]
  omega

/-- Settles O51: a line in range has the word of its format; a name is its number; one operand check
that fails refuses the line. -/
theorem assemblerLines : Obligations.AssemblerLines := by
  refine ⟨fun n h0 h15 => assemble_rd_number ⟨h0, h15⟩,
    fun n imm h0 h15 hlo hhi => assemble_wr_number ⟨h0, h15⟩ ⟨hlo, hhi⟩, fun r => ?_,
    fun r imm => ?_, fun raw hlo hhi => assemble_conv_of_ok ⟨hlo, hhi⟩, rfl, rfl, fun n h => ?_,
    fun n imm h => ?_, fun r imm h => ?_, fun raw h => ?_⟩
  · rw [assemble_rd, assemble_rd, regOperandOk_regNumber, operandNumber_regNumber]
  · rw [assemble_wr, assemble_wr, regOperandOk_regNumber, operandNumber_regNumber]
  · rw [assemble_rd, regOperandOk_number_of_out h]; rfl
  · rw [assemble_wr, regOperandOk_number_of_out h]; rfl
  · rw [assemble_wr, immOk_of_out h, Bool.and_false]; rfl
  · rw [assemble_conv, rawOk_of_out h]; rfl

/-- Settles O1: each line assembles to its word, which decodes to the transaction the line names;
RD 15 records its fault in every state. -/
theorem exampleWordsDecode : Obligations.ExampleWordsDecode :=
  ⟨by decide, by decide, by decide, by decide, by decide, by decide, by decide, by decide,
    by decide, by decide, by decide, fun _ => ⟨_, rfl, rfl⟩⟩

end Sys2Proof.Machine

/-! ### The time base's count -/

namespace Sys2Proof.Machine

/-- `wrap_N(v)` of a natural number is v modulo 2^N (R9). -/
theorem wrap_natCast (n k : Nat) : wrap n (k : Int) = BitVec.ofNat n (k % 2 ^ n) := by
  apply BitVec.eq_of_toNat_eq
  rw [wrap, BitVec.ofInt_natCast, BitVec.toNat_ofNat, BitVec.toNat_ofNat, Nat.mod_mod]

/-- The count of EV_TB wraps to 0 exactly from 255 (R101). -/
theorem wrap_tick_eq_zero_iff (tick : BitVec 8) :
    wrap 8 ((tick.toNat : Int) + 1) = 0#8 ↔ tick.toNat = 255 := by
  have htick := tick.isLt
  have hwrap := wrap_toNat 8 (tick.toNat + 1)
  rw [← BitVec.toNat_inj, BitVec.toNat_zero]
  omega

theorem tickTimeBase_tbTick (s : State) :
    s.tickTimeBase.tbTick = BitVec.ofNat 8 ((s.tbTick.toNat + 1) % 256) :=
  wrap_natCast 8 _

/-- TB_ELAPSED counts the wraps of TB_TICK (R101). -/
theorem tickTimeBase_tbElapsed (s : State) :
    s.tickTimeBase.tbElapsed = if s.tbTick.toNat = 255
      then BitVec.ofNat 16 ((s.tbElapsed.toNat + 1) % 65536) else s.tbElapsed :=
  if_congr (wrap_tick_eq_zero_iff s.tbTick) (wrap_natCast 16 _) rfl

/-- Settles O18: the two counters by their equations, the pulse and the rest by definition. -/
theorem timeBaseTick : Obligations.TimeBaseTick := by
  refine ⟨rfl, fun s => ?_⟩
  rw [← tickTimeBase_tbTick, ← tickTimeBase_tbElapsed]
  rfl

/-- One EV_TB is one more in the count, modulo 2^24 (R102). -/
theorem timeTotal_tickTimeBase (s : State) :
    timeTotal s.tickTimeBase = (timeTotal s + 1) % 2 ^ 24 := by
  have htick : s.tbTick.toNat < 256 := s.tbTick.isLt
  have helapsed : s.tbElapsed.toNat < 65536 := s.tbElapsed.isLt
  rw [timeTotal, timeTotal, tickTimeBase_tbTick_toNat, tickTimeBase_tbElapsed]
  split
  · rw [BitVec.toNat_ofNat]; omega
  · omega

@[simp] theorem timeTotal_pulse (s : State) (out : EventOut) :
    timeTotal (s.pulse out) = timeTotal s := rfl

@[simp] theorem timeTotal_beginStep (s : State) : timeTotal s.beginStep = timeTotal s := rfl

theorem timeTotal_lt (s : State) : timeTotal s < 2 ^ 24 := by
  have htick : s.tbTick.toNat < 256 := s.tbTick.isLt
  have helapsed : s.tbElapsed.toNat < 65536 := s.tbElapsed.isLt
  rw [timeTotal]
  omega

/-- A transaction but RESET counts one in the time when it is EV_TB, and nothing when it is not
(R36, R102). -/
theorem timeTotal_of_exec {i : Instr} {s t : State} (h : exec i s = .next t) (hr : i ≠ .reset) :
    timeTotal t = (timeTotal s + if i = .tb then 1 else 0) % 2 ^ 24 := by
  by_cases hi : i = .tb
  · subst hi
    cases h
    rw [if_pos rfl, timeTotal_pulse, timeTotal_tickTimeBase]
  · obtain ⟨htick, helapsed⟩ := (txnEffect_of_exec h hr).tb_or_time_eq.resolve_left hi
    rw [if_neg hi, Nat.add_zero, Nat.mod_eq_of_lt (timeTotal_lt s), timeTotal, htick, helapsed,
      timeTotal]

theorem timeTotal_of_exec_reset {s t : State} (h : exec .reset s = .next t) : timeTotal t = 0 := by
  cases h
  rw [timeTotal, State.resetRegs_tbElapsed, State.resetRegs_tbTick]
  decide

/-- Settles O52: the step runs the decoded transaction in the begun state, whose count is the old
one. -/
theorem everyStepCountsTheTime : Obligations.EveryStepCountsTheTime := by
  intro s t h
  obtain ⟨i, hi, hexec⟩ := step_next_cases h
  refine ⟨i, hi, ?_, fun hr => ?_⟩
  · rintro rfl
    exact timeTotal_of_exec_reset hexec
  · rw [timeTotal_of_exec hexec hr, timeTotal_beginStep]

/-- A run without RESET adds the number of its EV_TB to the count, modulo 2^24 (R102). -/
theorem timeTotal_of_execAll {txns : List Instr} {s t : State} (hr : .reset ∉ txns)
    (h : execAll txns s = .next t) :
    timeTotal t = (timeTotal s + txns.count .tb) % 2 ^ 24 := by
  induction txns generalizing s with
  | nil => cases h; rw [List.count_nil, Nat.add_zero, Nat.mod_eq_of_lt (timeTotal_lt t)]
  | cons i is ih =>
    obtain ⟨hi, his⟩ := List.ne_and_not_mem_of_not_mem_cons hr
    obtain ⟨u, hexec, hrest⟩ := execAll_cons_cases h
    rw [ih his hrest, timeTotal_of_exec hexec hi.symm, List.count_cons, Nat.mod_add_mod]
    simp only [beq_iff_eq, Nat.add_right_comm, Nat.add_assoc]

/-- Settles O19: RESET clears the count, and the run after it adds its EV_TB. -/
theorem elapsedTotal : Obligations.ElapsedTotal := by
  intro s r t txns hreset hr h
  have hcount := timeTotal_of_execAll hr h
  rwa [timeTotal_of_exec_reset hreset, Nat.zero_add] at hcount

end Sys2Proof.Machine

/-! ### EV_CONV: what one conversion leaves -/

namespace Sys2Proof.Machine

/-- The EV_CONV word as R82 writes it in numbers. -/
theorem encodeConv_eq_or (raw : Raw) : encodeConv raw = 0x80000000 ||| raw.setWidth 32 := by
  rw [encodeConv, BitVec.append_def]
  rfl

/-- The word of EV_CONV decodes for the converter (R82, R86). -/
theorem decode_convWord (raw : Raw) :
    decode (0x80000000 ||| raw.setWidth 32) .converter = .txn (.conv raw) := by
  rw [← encodeConv_eq_or]
  exact decode_encode_issuer (.conv raw)

theorem channelCode_injective {c d : Channel} (h : (channelCode c).toNat = (channelCode d).toNat) :
    c = d := by
  cases c <;> cases d <;> revert h <;> decide

/-- The channel's slot takes the result and the other slots stay (R114). -/
theorem completeConversion_sample (s : State) (raw : Raw) (c : Channel) :
    (s.completeConversion raw).sample c = if c = s.cur then raw else s.sample c := by
  simp only [State.sample, completeConversion_fields, Samples.get_put]

/-- The wheel of a channel is the wheel it samples (R23, R115). -/
theorem wheelOf_eq_some_iff (c : Channel) (w : Wheel) :
    wheelOf c = some w ↔ c = .wheelL ∧ w = .left ∨ c = .wheelR ∧ w = .right := by
  cases c <;> cases w <;> decide

/-- The switch test compares the raw results as numbers, and never clears SWP (R117). -/
theorem swpAfterSample_eq_ite (threshold raw : Raw) (swp : Bool) :
    swpAfterSample threshold raw swp = if raw.toNat < threshold.toNat then true else swp := by
  rw [swpAfterSample]
  split
  · next h => rw [decide_eq_true (BitVec.lt_def.mpr h), Bool.or_true]
  · next h => rw [decide_eq_false (mt BitVec.lt_def.mp h), Bool.or_false]

theorem completeConversion_swp_iff (s : State) (raw : Raw) :
    (s.completeConversion raw).swp = true ↔
      s.swp = true ∨ (s.cur = .switches ∧ raw.toNat < s.params.swThreshold.toNat) := by
  rw [completeConversion_swp]
  split
  · next h => rw [swpAfterSample_eq_ite]; simp [h, or_comm]
  · next h => simp [h]

/-- Settles O20: field by field, from what each field of the completed conversion is. -/
theorem conversionComplete : Obligations.ConversionComplete := by
  refine ⟨decode_convWord, fun s raw hrun => ⟨_, exec_conv_of_run raw hrun, ?_⟩,
    fun s raw => exec_conv_of_stopped raw⟩
  obtain ⟨hcur, hflight, -, hpulses, hauto, hrun', htick, helapsed, hfaulted, hfaults, hreply,
    hindex, hschedule, hparams⟩ := completeConversion_fields s raw
  refine ⟨completeConversion_sample s raw, fun w => ?_, completeConversion_swp_iff s raw, ?_,
    hflight.trans (congrArg some hcur.symm), hpulses, hauto, hrun'.trans hrun, htick, helapsed,
    hfaulted, hfaults, hreply, hindex, hschedule, hparams⟩
  · rw [completeConversion_wheel]
    simp only [wheelOf_eq_some_iff, and_comm]
  · rw [hcur, channelCode_nextChannel]

/-- Settles O21: on the switches channel the edge detector does nothing and the test sets SWP. -/
theorem switchTest : Obligations.SwitchTest := by
  intro s raw hrun hcur
  rw [exec_conv_of_run raw hrun, ← swpAfterSample_eq_ite, State.completeConversion, hcur,
    detectEdge_other _ _ _ rfl, State.testSwitch, if_pos rfl]
  rfl

end Sys2Proof.Machine

/-! ### The slots after a run of conversions -/

namespace Sys2Proof.Machine

/-- The slots after the results `raws` are stored one after the other, the first in the slot of `c`
and each next one in the slot of the next channel (R114, R116). -/
def storeResults : List Raw → Channel → Samples → Samples
  | [], _, x => x
  | raw :: raws, c, x => storeResults raws (nextChannel c) (x.put c raw)

theorem channelCode_advanceBy (n : Nat) (c : Channel) :
    (channelCode (advanceBy n c)).toNat = ((channelCode c).toNat + n) % 6 := by
  induction n generalizing c with
  | zero => exact (Nat.mod_eq_of_lt (Nat.lt_succ_of_le (channelCode_toNat_le c))).symm
  | succ n ih => rw [advanceBy, ih, channelCode_nextChannel]; omega

/-- From the start channel the code of the n-th is n modulo 6 (R118). -/
theorem eq_advanceBy_wheelL_iff {c : Channel} {n : Nat} :
    c = advanceBy n .wheelL ↔ (channelCode c).toNat = n % 6 := by
  have hcode : (channelCode (advanceBy n .wheelL)).toNat = n % 6 := by
    rw [channelCode_advanceBy]; exact congrArg (· % 6) (Nat.zero_add n)
  exact ⟨fun h => h ▸ hcode, fun h => channelCode_injective (h.trans hcode.symm)⟩

/-- One to five advances do not come back to the channel (R116). -/
theorem advanceBy_ne_self {n : Nat} (hpos : 0 < n) (hn : n < 6) (c : Channel) :
    advanceBy n c ≠ c := by
  intro h
  have hcode := channelCode_advanceBy n c
  have hle := channelCode_toNat_le c
  rw [h] at hcode
  omega

/-- A slot whose channel does not come up keeps what it held (R119). -/
theorem storeResults_get_of_ne {raws : List Raw} {c d : Channel} {x : Samples}
    (h : ∀ j < raws.length, advanceBy j c ≠ d) : (storeResults raws c x).get d = x.get d := by
  induction raws generalizing c x with
  | nil => rfl
  | cons raw raws ih =>
    have hd : d ≠ c := (h 0 (Nat.zero_lt_succ _)).symm
    rw [storeResults, ih fun j hj => h (j + 1) (Nat.succ_lt_succ hj), Samples.get_put, if_neg hd]

/-- One of the last six results stands in its channel's slot: the results after it, at most five, go
to other channels (R119). -/
theorem storeResults_get_advanceBy {raws : List Raw} {c : Channel} {x : Samples} {k : Nat}
    (hk : k < raws.length) (hlast : raws.length ≤ k + 6) :
    some ((storeResults raws c x).get (advanceBy k c)) = raws[k]? := by
  induction raws generalizing c x k with
  | nil => cases hk
  | cons raw raws ih =>
    rw [List.length_cons] at hk hlast
    cases k with
    | zero =>
      have hother : ∀ j < raws.length, advanceBy j (nextChannel c) ≠ c := fun j hj =>
        advanceBy_ne_self (n := j + 1) (Nat.succ_pos j) (by omega) c
      rw [advanceBy, storeResults, storeResults_get_of_ne hother, Samples.get_put, if_pos rfl]
      rfl
    | succ k => exact ih (by omega) (by omega)

/-- What lies between two starts (R118): each transaction takes place, and is no RESET and no start
write. -/
theorem noRestart_cons_cases {i : Instr} {is : List Instr} {s t : State}
    (h : noRestart (i :: is) s = true) (hexec : exec i s = .next t) :
    i ≠ .reset ∧ isStart s i = false ∧ noRestart is t = true := by
  simpa [noRestart, hexec, and_assoc] using h

theorem isStart_wrCtrl_iff (s : State) (v : RegVal) :
    isStart s (.wrCtrl v) = true ↔ s.run = false ∧ (s.writeCtrl v).run = true := by
  simp [isStart, startsRun]

/-- A start write leaves CUR at channel 0 and the slots as they were (R156). -/
theorem start_leaves {v : RegVal} {s t : State} (hstart : isStart s (.wrCtrl v) = true)
    (h : exec (.wrCtrl v) s = .next t) : t.cur = .wheelL ∧ t.samples = s.samples := by
  obtain ⟨hs, ht⟩ := (isStart_wrCtrl_iff s v).mp hstart
  cases h
  exact ⟨writeCtrl_cur_of_start hs ht, State.writeCtrl_samples s v⟩

/-- Between two starts only EV_CONV moves CUR or writes a slot (R22, R36). -/
theorem conv_or_cur_samples_eq {i : Instr} {s t : State} (h : exec i s = .next t)
    (hr : i ≠ .reset) (hstart : isStart s i = false) :
    (∃ raw, i = .conv raw) ∨ (t.cur = s.cur ∧ t.samples = s.samples) := by
  have e := txnEffect_of_exec h hr
  refine or_iff_not_imp_left.mpr fun hconv => ⟨?_, ?_⟩
  · by_contra hcur
    obtain ⟨v, rfl, hrun, ht⟩ := (e.cur_writer hcur).resolve_left hconv
    cases h
    rw [(isStart_wrCtrl_iff s v).mpr ⟨hrun, ht⟩] at hstart
    cases hstart
  · by_contra hsamples
    exact hconv (e.samples_writer hsamples)

theorem convResults_cons_of_ne {i : Instr} (h : ∀ raw, i ≠ .conv raw) (is : List Instr) :
    convResults (i :: is) = convResults is := by
  rw [convResults]
  exact h

/-- A run between two starts advances CUR once for each EV_CONV and stores the results in the
channels' order (R114, R116, R118). -/
theorem cur_samples_of_execAll {txns : List Instr} {t u : State} (hno : noRestart txns t = true)
    (h : execAll txns t = .next u) :
    u.cur = advanceBy (convResults txns).length t.cur ∧
      u.samples = storeResults (convResults txns) t.cur t.samples := by
  induction txns generalizing t with
  | nil => cases h; exact ⟨rfl, rfl⟩
  | cons i is ih =>
    obtain ⟨m, hexec, hrest⟩ := execAll_cons_cases h
    obtain ⟨hr, hstart, hno⟩ := noRestart_cons_cases hno hexec
    obtain ⟨hcur, hsamples⟩ := ih hno hrest
    by_cases hconv : ∃ raw, i = .conv raw
    · obtain ⟨raw, rfl⟩ := hconv
      obtain ⟨-, rfl⟩ := run_and_eq_of_exec_conv hexec
      obtain ⟨hc, -, hx, -⟩ := completeConversion_fields t raw
      rw [hc] at hcur hsamples
      rw [hx] at hsamples
      exact ⟨hcur, hsamples⟩
    · obtain ⟨hc, hx⟩ := (conv_or_cur_samples_eq hexec hr hstart).resolve_left hconv
      rw [convResults_cons_of_ne (not_exists.mp hconv), hcur, hsamples, hc, hx]
      exact ⟨rfl, rfl⟩

/-- CUR and the slots after a start write and a run without another start (R118, R119). -/
theorem cur_samples_since_start {v : RegVal} {s t u : State} {txns : List Instr}
    (hstart : isStart s (.wrCtrl v) = true) (hexec : exec (.wrCtrl v) s = .next t)
    (hno : noRestart txns t = true) (h : execAll txns t = .next u) :
    u.cur = advanceBy (convResults txns).length .wheelL ∧
      u.samples = storeResults (convResults txns) .wheelL s.samples := by
  obtain ⟨hc, hx⟩ := start_leaves hstart hexec
  rw [← hc, ← hx]
  exact cur_samples_of_execAll hno h

/-- Settles O41: CUR has advanced once for each EV_CONV, and a further one fills its slot. -/
theorem channelSequence : Obligations.ChannelSequence := by
  intro v s t u txns hstart hexec hno h
  obtain ⟨hcur, -⟩ := cur_samples_since_start hstart hexec hno h
  refine ⟨eq_advanceBy_wheelL_iff.mp hcur,
    fun raw hrun => ⟨_, exec_conv_of_run raw hrun, fun c hc => ?_⟩⟩
  rw [completeConversion_sample, if_pos ((eq_advanceBy_wheelL_iff.mpr hc).trans hcur.symm)]

/-- Settles O42: the slots are the results stored from channel 0 on, over the slots before the
start. -/
theorem slotsAreFresh : Obligations.SlotsAreFresh := by
  intro v s t u txns hstart hexec hno h
  obtain ⟨-, hsamples⟩ := cur_samples_since_start hstart hexec hno h
  simp only [State.sample, hsamples]
  refine ⟨fun k hk hlast c hc => ?_, fun c hc => storeResults_get_of_ne fun j hj hjc => ?_⟩
  · rw [eq_advanceBy_wheelL_iff.mpr hc]
    exact storeResults_get_advanceBy hk hlast
  · have hcode := eq_advanceBy_wheelL_iff.mp hjc.symm
    have hmod := Nat.mod_le j 6
    omega

end Sys2Proof.Machine

/-! ### The edge detector on natural numbers -/

namespace Sys2Proof.Machine

/-- The new average is the exact integer of the rule: no wrap occurs (R132). -/
theorem edgeUpdate_avg_toNat (raw : Raw) (x : WheelState) :
    ((edgeUpdate raw x).avg.toNat : Int) =
      x.avg.toNat + (((raw.toNat / 4 : Nat) : Int) - x.avg.toNat) / 4 := by
  have hraw := raw.isLt
  have havg := x.avg.isLt
  rw [edgeUpdate_avg, wrap_toNat, smooth_eq]
  omega

/-- The tick condition on the deviation from the updated average (R133). -/
theorem ticksOn_eq_tickFires (raw : Raw) (x : WheelState) :
    ticksOn raw x = tickFires x.sign ((raw.toNat / 4 : Nat) - (edgeUpdate raw x).avg.toNat) := by
  have hflip : ∀ g : Sign, (flipSign g != g) = true := by rintro (_ | _) <;> rfl
  rw [edgeUpdate_avg_toNat, ← smooth_eq, ticksOn]
  obtain ⟨hfires, hx⟩ | ⟨hfires, hx⟩ := edgeUpdate_cases raw x
  · rw [hx, hfires, hflip]
  · rw [hx, hfires, bne_self_eq_false]

/-- A tick flips the sign, and nothing else in the edge detector writes it (R134). -/
theorem edgeUpdate_sign (raw : Raw) (x : WheelState) :
    (edgeUpdate raw x).sign = if ticksOn raw x then flipSign x.sign else x.sign := by
  rw [ticksOn_eq_tickFires, edgeUpdate_avg_toNat, ← smooth_eq]
  obtain ⟨hfires, hx⟩ | ⟨hfires, hx⟩ := edgeUpdate_cases raw x <;> rw [hx, hfires] <;> rfl

/-- Exactly a tick counts one (R135). -/
theorem edgeUpdate_enc (raw : Raw) (x : WheelState) :
    (edgeUpdate raw x).enc = if ticksOn raw x then x.enc + 1 else x.enc := by
  rw [ticksOn_eq_tickFires, edgeUpdate_avg_toNat, ← smooth_eq]
  obtain ⟨hfires, hx⟩ | ⟨hfires, hx⟩ := edgeUpdate_cases raw x <;> rw [hx, hfires] <;> rfl

/-- Whether a sample of this level ticks, on the average before the update: the thresholds of R136,
item 1. -/
def WheelState.ticksAt (x : WheelState) (level : Nat) : Bool :=
  match x.sign with
  | .plus => decide (x.avg.toNat + 3 ≤ level)
  | .minus => decide (level + 4 ≤ x.avg.toNat)

theorem WheelState.ticksAt_iff (x : WheelState) (level : Nat) : x.ticksAt level = true ↔
    (x.sign = .plus ∧ x.avg.toNat + 3 ≤ level) ∨ (x.sign = .minus ∧ level + 4 ≤ x.avg.toNat) := by
  cases hsign : x.sign <;> simp [WheelState.ticksAt, hsign]

/-- A tick depends on the sample's level, and on the average before the update (R131, R136). -/
theorem ticksOn_eq_ticksAt (raw : Raw) (x : WheelState) :
    ticksOn raw x = x.ticksAt (raw.toNat / 4) := by
  have havg := edgeUpdate_avg_toNat raw x
  rw [ticksOn_eq_tickFires]
  cases hsign : x.sign
  · rw [tickFires_plus, WheelState.ticksAt, hsign, decide_eq_decide]
    omega
  · rw [tickFires_minus, WheelState.ticksAt, hsign, decide_eq_decide]
    omega

/-- A tick leaves the other sign, with the sample more than 2 past the updated average on the side
of the sign it found (R134). -/
theorem tick_leaves {raw : Raw} {x : WheelState} (h : ticksOn raw x = true) :
    (x.sign = .plus ∧ (edgeUpdate raw x).sign = .minus ∧
      (edgeUpdate raw x).avg.toNat + 2 < raw.toNat / 4) ∨
    (x.sign = .minus ∧ (edgeUpdate raw x).sign = .plus ∧
      raw.toNat / 4 + 2 < (edgeUpdate raw x).avg.toNat) := by
  have havg := edgeUpdate_avg_toNat raw x
  have hflip := edgeUpdate_sign raw x
  rw [if_pos h] at hflip
  rw [ticksOn_eq_ticksAt, WheelState.ticksAt_iff] at h
  obtain ⟨hsign, hlevel⟩ | ⟨hsign, hlevel⟩ := h
  · exact .inl ⟨hsign, by rw [hflip, hsign]; rfl, by omega⟩
  · exact .inr ⟨hsign, by rw [hflip, hsign]; rfl, by omega⟩

/-- The edge detector reads the 8-bit sample only (R131). -/
theorem edgeUpdate_congr {raw raw' : Raw} (x : WheelState) (h : raw.toNat / 4 = raw'.toNat / 4) :
    edgeUpdate raw x = edgeUpdate raw' x := by
  simp only [edgeUpdate, sampleMsb_toNat, h]

/-- Counting up by n, as two's complement (R135). -/
theorem toInt_add_ofNat (x : BitVec 16) (n : Nat) :
    (x + BitVec.ofNat 16 n).toInt = (x.toInt + n).bmod (2 ^ 16) := by
  rw [BitVec.toInt_add, BitVec.toInt_ofNat', Int.add_bmod_bmod]

theorem signInt_eq_ite (g : Sign) : signInt g = if g = .plus then 1 else -1 := by
  cases g <;> rfl

theorem flipSign_eq_ite (g : Sign) : flipSign g = if g = .plus then .minus else .plus := by
  cases g <;> rfl

/-- EV_CONV while AUTOENC = 1 updates the wheel of CUR, and that wheel only (R115). -/
theorem completeConversion_wheel_of_gate {s : State} (raw : Raw) {w : Wheel}
    (hauto : s.autoenc = true) (hcur : wheelOf s.cur = some w) (w' : Wheel) :
    (s.completeConversion raw).wheel w' =
      if w' = w then edgeUpdate raw (s.wheel w') else s.wheel w' := by
  simp [completeConversion_wheel, hauto, hcur, eq_comm]

/-- Settles O22: EV_CONV runs the edge detector on the wheel of CUR, whose average, tick and count
are those of the rule. -/
theorem edgeUpdateRule : Obligations.EdgeUpdateRule := by
  intro s raw w hrun hauto hcur
  have hof : wheelOf s.cur = some w := by cases w <;> rw [hcur] <;> rfl
  have hwheel := completeConversion_wheel_of_gate raw hauto hof
  refine ⟨_, exec_conv_of_run raw hrun, fun w' hw => by rw [hwheel, if_neg hw], ?_⟩
  rintro sm a a' e sgn rfl rfl rfl rfl rfl
  have hticks := ticksOn_eq_tickFires raw (s.wheel w)
  rw [edgeUpdate_avg_toNat] at hticks
  rw [hwheel, if_pos rfl, ← signInt_eq_ite, ← flipSign_eq_ite, edgeUpdate_enc, edgeUpdate_sign]
  refine ⟨edgeUpdate_avg_toNat raw _, ?_⟩
  split
  · next h =>
    rw [hticks.trans (decide_eq_true h)]
    exact ⟨toInt_add_ofNat _ 1, rfl⟩
  · next h =>
    rw [hticks.trans (decide_eq_false h)]
    exact ⟨rfl, rfl⟩

/-- Settles O23: the floor of a quarter of the difference lies between 0 and the difference. -/
theorem averageStaysBetween : Obligations.AverageStaysBetween := by
  intro raw x
  have havg := edgeUpdate_avg_toNat raw x
  exact ⟨havg, by omega, by omega⟩

/-- Settles O24: the thresholds by `ticksOn_eq_ticksAt`, the corners and the overflow by the new
average's and the counter's exact values. -/
theorem tickThresholds : Obligations.TickThresholds := by
  refine ⟨fun raw x hsign => ?_, fun raw x hsign => ?_, fun raw x hx hs => ?_,
    fun raw x hx hs => ?_, fun raw x henc hticks => ?_, fun raw raw' x => edgeUpdate_congr x⟩
  · simp [ticksOn_eq_ticksAt, WheelState.ticksAt_iff, hsign]
  · simp [ticksOn_eq_ticksAt, WheelState.ticksAt_iff, hsign]
  · have havg := edgeUpdate_avg_toNat raw x
    rw [hx, hs] at havg
    exact BitVec.eq_of_toNat_eq (Int.ofNat_inj.mp havg)
  · have havg := edgeUpdate_avg_toNat raw x
    rw [hx, hs] at havg
    exact BitVec.eq_of_toNat_eq (Int.ofNat_inj.mp havg)
  · rw [edgeUpdate_enc, if_pos hticks]
    exact (toInt_add_ofNat x.enc 1).trans (by rw [henc]; rfl)

theorem ticksOn_of_enc_ne {raw : Raw} {x : WheelState} (h : (edgeUpdate raw x).enc ≠ x.enc) :
    ticksOn raw x = true := by
  by_contra hticks
  exact h (by rw [edgeUpdate_enc, if_neg hticks])

/-- Settles O25: a wheel's count or sign changes in an EV_CONV only by a tick of the edge
detector. -/
theorem signAlternates : Obligations.SignAlternates := by
  refine ⟨fun s t raw w h henc => ?_, fun raw x henc => tick_leaves (ticksOn_of_enc_ne henc),
    fun i s t w h hr hsign => ?_, fun raw x => tick_leaves⟩
  · obtain ⟨-, rfl⟩ := run_and_eq_of_exec_conv h
    rw [completeConversion_wheel] at henc ⊢
    split at henc
    · next hgate => rw [if_pos hgate]; exact bne_iff_ne.mp (ticksOn_of_enc_ne henc)
    · exact absurd rfl henc
  · obtain hw | ⟨raw, rfl, hw⟩ | ⟨v, -, hw⟩ := (txnEffect_of_exec h hr).wheel_cases w
    · exact absurd (by rw [hw]) hsign
    · rw [hw] at hsign ⊢
      have hticks : ticksOn raw (s.wheel w) = true := bne_iff_ne.mpr hsign
      exact ⟨raw, rfl, hticks, by rw [edgeUpdate_enc, if_pos hticks]⟩
    · exact absurd (by rw [hw]) hsign

end Sys2Proof.Machine

/-! ### The wheels over runs of transactions -/

namespace Sys2Proof.Machine

/-- One transaction that is no RESET and no WR of the counter counts one on a wheel at most, and
none unless it is EV_CONV (R135). -/
theorem enc_of_exec {i : Instr} {s t : State} {w : Wheel} (h : exec i s = .next t)
    (hr : i ≠ .reset) (hw : ∀ v, i ≠ wrEncOf w v) :
    ∃ n, n ≤ (convResults [i]).length ∧ (t.wheel w).enc = (s.wheel w).enc + BitVec.ofNat 16 n := by
  by_cases henc : (t.wheel w).enc = (s.wheel w).enc
  · exact ⟨0, Nat.zero_le _, by rw [henc, BitVec.add_zero]⟩
  · obtain ⟨raw, rfl, hone⟩ | ⟨v, hi, -⟩ := (txnEffect_of_exec h hr).enc_writer henc
    · exact ⟨1, le_rfl, hone⟩
    · exact absurd hi (hw v)

theorem convResults_length_cons (i : Instr) (is : List Instr) :
    (convResults (i :: is)).length = (convResults [i]).length + (convResults is).length := by
  cases i <;> simp [convResults, Nat.add_comm]

/-- Over a run without RESET and WR of the counter, a counter counts up by at most one for each
EV_CONV (R135). -/
theorem enc_of_execAll {txns : List Instr} {s t : State} {w : Wheel} (h : execAll txns s = .next t)
    (hr : ∀ i ∈ txns, i ≠ .reset) (hw : ∀ i ∈ txns, ∀ v, i ≠ wrEncOf w v) :
    ∃ n, n ≤ (convResults txns).length ∧ (t.wheel w).enc = (s.wheel w).enc + BitVec.ofNat 16 n := by
  induction txns generalizing s with
  | nil => cases h; exact ⟨0, le_rfl, (BitVec.add_zero _).symm⟩
  | cons i is ih =>
    obtain ⟨u, hexec, hrest⟩ := execAll_cons_cases h
    obtain ⟨hri, hris⟩ := List.forall_mem_cons.mp hr
    obtain ⟨hwi, hwis⟩ := List.forall_mem_cons.mp hw
    obtain ⟨m, hm, hum⟩ := enc_of_exec hexec hri hwi
    obtain ⟨n, hn, htn⟩ := ih hrest hris hwis
    refine ⟨m + n, by rw [convResults_length_cons]; exact Nat.add_le_add hm hn, ?_⟩
    rw [htn, hum, BitVec.ofNat_add, BitVec.add_assoc]

/-- Settles O26: the count of the run, as two's complement. -/
theorem countersOnlyCountUp : Obligations.CountersOnlyCountUp := by
  intro txns s t w h hall
  obtain ⟨n, hn, henc⟩ := enc_of_execAll (w := w) h (fun i hi => (hall i hi).1) fun i hi v => by
    obtain ⟨hleft, hright⟩ := (hall i hi).2 v
    cases w
    · exact hleft
    · exact hright
  exact ⟨n, hn, by rw [henc, toInt_add_ofNat]⟩

/-- With the gate closed EV_CONV leaves both wheels as they were (R115, R139). -/
theorem wheel_of_exec_conv_gate_off {raw : Raw} {s t : State} (ha : s.autoenc = false)
    (h : exec (.conv raw) s = .next t) (w : Wheel) : t.wheel w = s.wheel w := by
  obtain ⟨-, rfl⟩ := run_and_eq_of_exec_conv h
  simp [completeConversion_wheel, ha]

/-- With the gate closed only the WR of its counter, or RESET, changes a wheel (R139). -/
theorem wheel_of_exec_gate_off {i : Instr} {s t : State} (ha : s.autoenc = false)
    (h : exec i s = .next t) (hr : i ≠ .reset) (w : Wheel) :
    t.wheel w = s.wheel w ∨ ∃ v, i = wrEncOf w v ∧ t.wheel w = { s.wheel w with enc := v } := by
  obtain hw | ⟨raw, rfl, -⟩ | hwrite := (txnEffect_of_exec h hr).wheel_cases w
  · exact .inl hw
  · exact .inl (wheel_of_exec_conv_gate_off ha h w)
  · exact .inr hwrite

/-- A run with the gate closed that leaves CTRL and the counter alone and holds no RESET leaves the
wheel alone (R139). -/
theorem wheel_of_execAll_gate_off {txns : List Instr} {s t : State} {w : Wheel}
    (ha : s.autoenc = false) (h : execAll txns s = .next t)
    (hall : ∀ i ∈ txns, i ≠ .reset ∧ ∀ v, i ≠ .wrCtrl v ∧ i ≠ wrEncOf w v) :
    t.wheel w = s.wheel w := by
  induction txns generalizing s with
  | nil => cases h; rfl
  | cons i is ih =>
    obtain ⟨u, hexec, hrest⟩ := execAll_cons_cases h
    obtain ⟨⟨hr, hno⟩, hall⟩ := List.forall_mem_cons.mp hall
    obtain ⟨hauto, -⟩ := (txnEffect_of_exec hexec hr).wrCtrl_or_ctrl_eq.resolve_left
      fun ⟨v, hi⟩ => (hno v).1 hi
    have hwheel := (wheel_of_exec_gate_off ha hexec hr w).resolve_right
      fun ⟨v, hi, _⟩ => (hno v).2 hi
    rw [ih (hauto.trans ha) hrest hall, hwheel]

/-- Settles O29: transaction by transaction, and over a run that keeps the gate closed. -/
theorem gateOffFreezesTheWheels : Obligations.GateOffFreezesTheWheels := by
  refine ⟨fun raw s t ha h => ?_, fun i s t w ha h hne => ?_, fun txns s t ha h hall => ?_⟩
  · exact ⟨wheel_of_exec_conv_gate_off ha h .left, wheel_of_exec_conv_gate_off ha h .right⟩
  · refine or_iff_not_imp_left.mpr fun hr => ?_
    obtain ⟨v, hi, hw⟩ := (wheel_of_exec_gate_off ha h hr w).resolve_left hne
    exact ⟨by rw [hw], by rw [hw], v, by cases w <;> exact hi⟩
  · refine ⟨wheel_of_execAll_gate_off (w := .left) ha h fun i hi => ?_,
      wheel_of_execAll_gate_off (w := .right) ha h fun i hi => ?_⟩
    · exact (hall i hi).imp_right fun hno v => let ⟨hctrl, hleft, _⟩ := hno v; ⟨hctrl, hleft⟩
    · exact (hall i hi).imp_right fun hno v => let ⟨hctrl, _, hright⟩ := hno v; ⟨hctrl, hright⟩

end Sys2Proof.Machine

/-! ### Held levels -/

namespace Sys2Proof.Machine

@[simp] theorem filterRun_nil (x : WheelState) : filterRun [] x = x := rfl

@[simp] theorem filterRun_cons (raw : Raw) (raws : List Raw) (x : WheelState) :
    filterRun (raw :: raws) x = filterRun raws (edgeUpdate raw x) := rfl

theorem atLevel_cons_iff {level : Nat} {raw : Raw} {raws : List Raw} :
    atLevel level (raw :: raws) ↔ raw.toNat / 4 = level ∧ atLevel level raws := List.forall_mem_cons

theorem atLevel_map_range {level : Nat} {raws : Nat → Raw} (h : ∀ n, (raws n).toNat / 4 = level)
    (n : Nat) : atLevel level ((List.range n).map raws) :=
  List.forall_mem_map.mpr fun k _ => h k

/-- The average has settled exactly on the level and on the three values below it (R137). -/
theorem WheelState.settledAt_iff (x : WheelState) (level : Nat) :
    x.settledAt level ↔ x.avg.toNat ≤ level ∧ level ≤ x.avg.toNat + 3 := by
  rw [WheelState.settledAt, smooth_eq]
  omega

/-- From the level or above, the average goes down to it by at least 1 a sample, and stays (R136,
item 2). -/
theorem filterRun_avg_of_ge {level : Nat} {raws : List Raw} {x : WheelState}
    (hlevel : atLevel level raws) (h : level ≤ x.avg.toNat) :
    level ≤ (filterRun raws x).avg.toNat ∧
      (filterRun raws x).avg.toNat ≤ level + (x.avg.toNat - level - raws.length) := by
  induction raws generalizing x with
  | nil => rw [filterRun_nil, List.length_nil]; omega
  | cons raw raws ih =>
    obtain ⟨hraw, hrest⟩ := atLevel_cons_iff.mp hlevel
    have havg := edgeUpdate_avg_toNat raw x
    have hrun := ih (x := edgeUpdate raw x) hrest (by omega)
    rw [filterRun_cons, List.length_cons]
    omega

/-- From 3 or more below the level, the average goes up to 3 below it by at least 1 a sample until
it is there, and stays (R136, item 3). -/
theorem filterRun_avg_of_add_three_le {level : Nat} {raws : List Raw} {x : WheelState}
    (hlevel : atLevel level raws) (h : x.avg.toNat + 3 ≤ level) :
    (filterRun raws x).avg.toNat + 3 ≤ level ∧
      level ≤ (filterRun raws x).avg.toNat + 3 + (level - 3 - x.avg.toNat - raws.length) := by
  induction raws generalizing x with
  | nil => rw [filterRun_nil, List.length_nil]; omega
  | cons raw raws ih =>
    obtain ⟨hraw, hrest⟩ := atLevel_cons_iff.mp hlevel
    have havg := edgeUpdate_avg_toNat raw x
    have hrun := ih (x := edgeUpdate raw x) hrest (by omega)
    rw [filterRun_cons, List.length_cons]
    omega

/-- A settled average stays (R137). -/
theorem filterRun_avg_of_settled {level : Nat} {raws : List Raw} {x : WheelState}
    (hlevel : atLevel level raws) (h : x.settledAt level) : (filterRun raws x).avg = x.avg := by
  induction raws generalizing x with
  | nil => rfl
  | cons raw raws ih =>
    obtain ⟨hraw, hrest⟩ := atLevel_cons_iff.mp hlevel
    have havg : (edgeUpdate raw x).avg = x.avg := by
      have havg := edgeUpdate_avg_toNat raw x
      have hsettled := (x.settledAt_iff level).mp h
      exact BitVec.eq_of_toNat_eq (by omega)
    have hnext : (edgeUpdate raw x).settledAt level := by rwa [WheelState.settledAt, havg]
    rw [filterRun_cons, ih hrest hnext, havg]

/-- A sample never ticks right after another of the same level: under +1 the average is then no more
than 2 below the level or the sign has flipped, and likewise under -1 (R137). -/
theorem ticksOn_edgeUpdate_of_same_level {raw raw' : Raw} (x : WheelState)
    (h : raw'.toNat / 4 = raw.toNat / 4) : ticksOn raw' (edgeUpdate raw x) = false := by
  have havg := edgeUpdate_avg_toNat raw x
  rw [ticksOn_eq_ticksAt, h, ← Bool.not_eq_true, WheelState.ticksAt_iff]
  by_cases hticks : ticksOn raw x = true
  · obtain ⟨-, hsign, hlevel⟩ | ⟨-, hsign, hlevel⟩ := tick_leaves hticks
    · simp only [hsign, reduceCtorEq, false_and, true_and, false_or]
      omega
    · simp only [hsign, reduceCtorEq, false_and, true_and, or_false]
      omega
  · rw [edgeUpdate_sign, if_neg hticks]
    rw [ticksOn_eq_ticksAt, WheelState.ticksAt_iff] at hticks
    rintro (⟨hsign, hlevel⟩ | ⟨hsign, hlevel⟩)
    · exact hticks (.inl ⟨hsign, by omega⟩)
    · exact hticks (.inr ⟨hsign, by omega⟩)

/-- Of a held level only the first sample can tick (R137). -/
theorem tickCount_after_sample {level : Nat} {raw : Raw} {raws : List Raw} (x : WheelState)
    (hraw : raw.toNat / 4 = level) (hlevel : atLevel level raws) :
    tickCount raws (edgeUpdate raw x) = 0 := by
  induction raws generalizing raw x with
  | nil => rfl
  | cons raw' raws ih =>
    obtain ⟨hraw', hrest⟩ := atLevel_cons_iff.mp hlevel
    rw [tickCount, ih _ hraw' hrest, ticksOn_edgeUpdate_of_same_level x (hraw'.trans hraw.symm)]
    rfl

theorem tickCount_le_one {level : Nat} {raws : List Raw} (x : WheelState)
    (hlevel : atLevel level raws) : tickCount raws x ≤ 1 := by
  cases raws with
  | nil => exact Nat.zero_le 1
  | cons raw raws =>
    obtain ⟨hraw, hrest⟩ := atLevel_cons_iff.mp hlevel
    rw [tickCount, tickCount_after_sample x hraw hrest]
    split <;> decide

/-- Settles O27: from above and from below within as many samples as the average is off; a settled
average ticks only 3 below the level under +1; and only the first sample can tick. -/
theorem staticSignal : Obligations.StaticSignal := by
  intro level raws x hraws
  have hlevel := atLevel_map_range hraws
  have hlength (n : Nat) : ((List.range n).map raws).length = n := by simp
  refine ⟨fun h => ⟨x.avg.toNat - level, fun n hn => ?_⟩,
    fun h => ⟨level - 3 - x.avg.toNat, fun n hn => ?_⟩, fun hle hge n => ?_,
    fun hsettled n hticks => ?_, fun n => tickCount_le_one x (hlevel n)⟩
  · have hrun := filterRun_avg_of_ge (hlevel n) h.le
    rw [hlength] at hrun
    omega
  · have hrun := filterRun_avg_of_add_three_le (hlevel n) h
    rw [hlength] at hrun
    omega
  · exact filterRun_avg_of_settled (hlevel n) ((x.settledAt_iff level).mpr ⟨hle, by omega⟩)
  · have havg := edgeUpdate_avg_toNat (raws n) x
    have hsettled := (x.settledAt_iff level).mp hsettled
    have hn := hraws n
    obtain ⟨hsign, hflip, hbelow⟩ | ⟨-, -, habove⟩ := tick_leaves hticks
    · exact ⟨hsign, by omega, hflip⟩
    · omega

end Sys2Proof.Machine

/-! ### Square waves -/

namespace Sys2Proof.Machine

/-- A held level ticks on its first sample or not at all (R138). -/
theorem levelTicks_of_atLevel {level : Nat} {raws : List Raw} (x : WheelState) (hne : raws ≠ [])
    (hlevel : atLevel level raws) : levelTicks raws x = (x.ticksAt level, 0) := by
  obtain ⟨raw, rest, rfl⟩ := List.exists_cons_of_ne_nil hne
  obtain ⟨rfl, hrest⟩ := atLevel_cons_iff.mp hlevel
  rw [levelTicks, ticksOn_eq_ticksAt, tickCount_after_sample x rfl hrest]

theorem filterRun_sign_after_sample {level : Nat} {raw : Raw} {raws : List Raw} (x : WheelState)
    (hraw : raw.toNat / 4 = level) (hlevel : atLevel level raws) :
    (filterRun raws (edgeUpdate raw x)).sign = (edgeUpdate raw x).sign := by
  induction raws generalizing raw x with
  | nil => rfl
  | cons raw' raws ih =>
    obtain ⟨hraw', hrest⟩ := atLevel_cons_iff.mp hlevel
    rw [filterRun_cons, ih _ hraw' hrest, edgeUpdate_sign,
      ticksOn_edgeUpdate_of_same_level x (hraw'.trans hraw.symm)]
    rfl

theorem filterRun_sign {level : Nat} {raws : List Raw} (x : WheelState) (hne : raws ≠ [])
    (hlevel : atLevel level raws) :
    (filterRun raws x).sign = if x.ticksAt level then flipSign x.sign else x.sign := by
  obtain ⟨raw, rest, rfl⟩ := List.exists_cons_of_ne_nil hne
  obtain ⟨rfl, hrest⟩ := atLevel_cons_iff.mp hlevel
  rw [filterRun_cons, filterRun_sign_after_sample x rfl hrest, edgeUpdate_sign, ticksOn_eq_ticksAt]

/-- A rise by `d` from a settled low level settles 3 below the high one, or, when the average is
already as near as that, leaves it (R137). -/
theorem filterRun_avg_of_rise {lo d : Nat} {up : List Raw} {x : WheelState}
    (havg : x.avg.toNat = lo) (hlevel : atLevel (lo + d) up)
    (hsettled : (filterRun up x).settledAt (lo + d)) :
    (filterRun up x).avg.toNat = lo + (d - 3) := by
  by_cases hd : d ≤ 3
  · rw [filterRun_avg_of_settled hlevel ((x.settledAt_iff _).mpr (by omega))]
    omega
  · have hrun := filterRun_avg_of_add_three_le (x := x) hlevel (by omega)
    have hrange := (WheelState.settledAt_iff _ _).mp hsettled
    omega

/-- A fall settles exactly on the low level (R137). -/
theorem filterRun_avg_of_fall {lo : Nat} {down : List Raw} {y : WheelState}
    (havg : lo ≤ y.avg.toNat) (hlevel : atLevel lo down)
    (hsettled : (filterRun down y).settledAt lo) : (filterRun down y).avg.toNat = lo := by
  have hrun := filterRun_avg_of_ge hlevel havg
  have hrange := (WheelState.settledAt_iff _ _).mp hsettled
  omega

/-- A rise by `d` from the settled low level ticks under +1 when d is 3 or more (R138). -/
theorem ticksAt_rise {lo d : Nat} {x : WheelState} (havg : x.avg.toNat = lo) :
    x.ticksAt (lo + d) = decide (x.sign = .plus ∧ 3 ≤ d) := by
  rw [Bool.eq_iff_iff, decide_eq_true_iff, WheelState.ticksAt_iff]
  constructor
  · rintro (⟨hsign, hd⟩ | ⟨-, hd⟩)
    · exact ⟨hsign, by omega⟩
    · omega
  · exact fun ⟨hsign, hd⟩ => .inl ⟨hsign, by omega⟩

/-- The fall after a rise by `d` ticks exactly when d is 7 or more: such a rise leaves -1 (R138). -/
theorem ticksAt_fall {lo d : Nat} {y : WheelState} (havg : y.avg.toNat = lo + (d - 3))
    (hsign : 3 ≤ d → y.sign = .minus) : y.ticksAt lo = decide (7 ≤ d) := by
  rw [Bool.eq_iff_iff, decide_eq_true_iff, WheelState.ticksAt_iff]
  constructor
  · rintro (⟨-, hd⟩ | ⟨-, hd⟩) <;> omega
  · exact fun hd => .inr ⟨hsign (by omega), by omega⟩

/-- One period from the settled low level: which of its edges tick, and the low level settled again
under the sign that the next period starts with (R138). -/
theorem waveTicks_cons {lo d : Nat} {up down : List Raw} {ps : List (List Raw × List Raw)}
    {x : WheelState} (havg : x.avg.toNat = lo)
    (h : waveHeld lo (lo + d) ((up, down) :: ps) x) :
    ∃ z, z.avg.toNat = lo ∧ waveHeld lo (lo + d) ps z ∧
      z.sign = (if 7 ≤ d then .plus else if 3 ≤ d then .minus else x.sign) ∧
      waveTicks ((up, down) :: ps) x =
        ((decide (x.sign = .plus ∧ 3 ≤ d), 0), (decide (7 ≤ d), 0)) :: waveTicks ps z := by
  obtain ⟨hup, hdown, hhi, hlo, hsettledHi, hsettledLo, hheld⟩ := h
  have hrise := ticksAt_rise (d := d) havg
  have hyavg := filterRun_avg_of_rise havg hhi hsettledHi
  have hysign : (filterRun up x).sign = if 3 ≤ d then .minus else x.sign := by
    rw [filterRun_sign x hup hhi, hrise]
    by_cases hd : 3 ≤ d
    · cases x.sign <;> simp [hd, flipSign]
    · simp [hd]
  have hfall := ticksAt_fall hyavg fun hd => by rw [hysign, if_pos hd]
  refine ⟨_, filterRun_avg_of_fall (by omega) hlo hsettledLo, hheld, ?_, ?_⟩
  · rw [filterRun_sign _ hdown hlo, hfall, hysign]
    by_cases hd : 7 ≤ d
    · have hd3 : 3 ≤ d := by omega
      simp [hd, hd3, flipSign]
    · simp [hd]
  · rw [waveTicks, levelTicks_of_atLevel x hup hhi, levelTicks_of_atLevel _ hdown hlo, hrise, hfall]

/-- A wave whose first rise ticks exactly when its falls do goes on so in every period (R138). -/
theorem waveTicks_of_steady {lo d : Nat} {periods : List (List Raw × List Raw)} {x : WheelState}
    (havg : x.avg.toNat = lo) (hheld : waveHeld lo (lo + d) periods x)
    (hsteady : (x.sign = .plus ∧ 3 ≤ d) ↔ 7 ≤ d) :
    waveTicks periods x =
      List.replicate periods.length ((decide (7 ≤ d), 0), (decide (7 ≤ d), 0)) := by
  induction periods generalizing x with
  | nil => rfl
  | cons p ps ih =>
    obtain ⟨z, hzavg, hzheld, hzsign, hticks⟩ := waveTicks_cons havg hheld
    have hzsteady : (z.sign = .plus ∧ 3 ≤ d) ↔ 7 ≤ d := by
      rw [hzsign]
      split
      · next hd7 => exact ⟨fun _ => hd7, fun _ => ⟨rfl, by omega⟩⟩
      · next hd7 =>
        split
        · exact ⟨fun ⟨hminus, _⟩ => (nomatch hminus), fun h => absurd h hd7⟩
        · exact hsteady
    rw [hticks, ih hzavg hzheld hzsteady, decide_eq_decide.mpr hsteady, List.length_cons,
      List.replicate_succ]

/-- Settles O28: the wave is steady from its first period on for D ≥ 7 and for D ≤ 2, and from its
second on, under -1, for the heights between. -/
theorem squareWave : Obligations.SquareWave := by
  intro lo d periods x havg hsign hheld
  refine ⟨fun hd => ?_, fun hd3 hd6 hne => ?_, fun hd => ?_⟩
  · rw [waveTicks_of_steady havg hheld ⟨fun _ => hd, fun _ => ⟨hsign, by omega⟩⟩,
      decide_eq_true hd]
  · obtain ⟨⟨up, down⟩, ps, rfl⟩ := List.exists_cons_of_ne_nil hne
    obtain ⟨z, hzavg, hzheld, hzsign, hticks⟩ := waveTicks_cons havg hheld
    have hd7 : ¬ 7 ≤ d := by omega
    rw [if_neg hd7, if_pos hd3] at hzsign
    rw [hticks, waveTicks_of_steady hzavg hzheld (by simp [hzsign, hd7]), decide_eq_false hd7,
      decide_eq_true ⟨hsign, hd3⟩]
    rfl
  · rw [waveTicks_of_steady havg hheld ⟨fun ⟨_, hd3⟩ => by omega, fun hd7 => by omega⟩,
      decide_eq_false (by omega)]

end Sys2Proof.Machine

/-! ### Host accesses: the words of RD and WR, and what each leaves -/

namespace Sys2Proof.Machine

/-- The WR words as R82 writes them in numbers: the register's word with the data in its low half. -/
theorem encodeWr_eq_or (r : RegNum) (v : RegVal) :
    encodeWr r v = encodeWr r 0 ||| v.setWidth 32 := by
  simp [encodeWr, BitVec.append_def (w := 16)]

/-- Every WR word decodes for the host (R82, R86). -/
theorem decode_wrWord (r : RegNum) (v : RegVal) :
    decode (encodeWr r 0 ||| v.setWidth 32) .host = .txn (wrOf r v) := by
  rw [← encodeWr_eq_or, ← encode_wrOf]
  exact decode_encode_of_wellFormed (beq_iff_eq.mpr (wrOf_issuer r v))

/-- Every RD word decodes for the host (R82, R86). -/
theorem decode_rdWord (r : RegNum) : decode (encodeRd r) .host = .txn (rdOf r) := by
  revert r; decide

/-- A RD returns what the register's view is shown to be, and changes nothing else (R65, R150). -/
theorem exec_rd_of_view (r : Reg) {s : State} {v : RegVal} (h : view s r = v) :
    exec (rdOf (regNumber r)) s = .next { s with reply := some v } := by
  rw [exec_rdOf_regNumber, h]
  rfl

/-- CTRL holds RUN above AUTOENC (R27). -/
theorem view_ctrl_eq_ofNat (s : State) :
    view s .ctrl = BitVec.ofNat 16 (2 * s.run.toNat + s.autoenc.toNat) := by
  unfold view
  cases s.run <;> cases s.autoenc <;> rfl

/-- STATUS holds CUR above SWP (R28). -/
theorem view_status_eq_ofNat (s : State) :
    view s .status = BitVec.ofNat 16 (2 * (channelCode s.cur).toNat + s.swp.toNat) := by
  unfold view
  cases s.cur <;> cases s.swp <;> rfl

/-- A counter is read as the two's-complement number it holds (R30). -/
theorem view_enc_eq_ofInt (s : State) (w : Wheel) :
    view s (.enc w) = BitVec.ofInt 16 (s.wheel w).enc.toInt := BitVec.ofInt_toInt.symm

theorem view_sample_eq_ofNat (s : State) (c : Channel) :
    view s (.sample c) = BitVec.ofNat 16 (s.sample c).toNat := (BitVec.ofNat_toNat ..).symm

theorem view_avg_eq_ofNat (s : State) (w : Wheel) :
    view s (.avg w) = BitVec.ofNat 16 (s.wheel w).avg.toNat := (BitVec.ofNat_toNat ..).symm

theorem view_tbTick_eq_ofNat (s : State) :
    view s .tbTick = BitVec.ofNat 16 s.tbTick.toNat := (BitVec.ofNat_toNat ..).symm

/-- RD of r = 0xF returns no value and records its fault (R161). -/
theorem exec_rd15 (s : State) : exec .rd15 s = .next
    { s with
      reply := none, faulted := true, faults := s.faults ++ [.unmappedRegister (.read 0xF)] } := rfl

/-- WR of r = 0xF records its fault, the data with it, and writes nothing (R161). -/
theorem exec_wr15 (s : State) (v : RegVal) : exec (.wr15 v) s = .next
    { s with faulted := true, faults := s.faults ++ [.unmappedRegister (.write 0xF v)] } := rfl

/-- WR CTRL starts the rotation, stops it, or leaves it as it was, by RUN before and after (R156). -/
theorem writeCtrl_eq_ite (s : State) (v : RegVal) : s.writeCtrl v =
    if s.run = false ∧ runBit v = true then
      { s with autoenc := autoencBit v, run := true, cur := .wheelL, inFlight := some .wheelL }
    else if s.run = true ∧ runBit v = false then
      { s with autoenc := autoencBit v, run := false, inFlight := none }
    else { s with autoenc := autoencBit v, run := runBit v } := by
  obtain ⟨hs, hv, ht⟩ | ⟨hs, hv, ht⟩ | ⟨hrun, ht⟩ := writeCtrl_cases s v
  · rw [if_pos ⟨hs, hv⟩, ht]
  · rw [if_neg (by simp [hs]), if_pos ⟨hs, hv⟩, ht]
  · rw [if_neg (by simp [hrun]), if_neg (by simp [hrun]), ht]

theorem swpAfterWrite_eq_ite (v : RegVal) (swp : Bool) :
    swpAfterWrite v swp = if clearSwpBit v = true then false else swp := by
  unfold swpAfterWrite
  cases clearSwpBit v
  · exact Bool.and_true swp
  · exact Bool.and_false swp

/-- WR STATUS writes SWP alone, and clears it by bit 0 (R157). -/
theorem writeStatus_eq (s : State) (v : RegVal) :
    s.writeStatus v = { s with swp := if clearSwpBit v = true then false else s.swp } := by
  rw [State.writeStatus, swpAfterWrite_eq_ite]

/-- Settles O8: the word is the encoding of RESET, whose meaning sets the registers of R39 and keeps
the rest. -/
theorem resetTransaction : Obligations.ResetTransaction :=
  ⟨decode_encode_issuer .reset, fun _ => rfl⟩

/-- Settles O10: a RD returns its register's view, each view being a number of its fields. -/
theorem readsReturnTheRegister : Obligations.ReadsReturnTheRegister := by
  refine ⟨⟨decode_rdWord 0x0, decode_rdWord 0x1, decode_rdWord 0x2, decode_rdWord 0x3,
    decode_rdWord 0x4, decode_rdWord 0x5, decode_rdWord 0x6, decode_rdWord 0x7, decode_rdWord 0x8,
    decode_rdWord 0x9, decode_rdWord 0xA, decode_rdWord 0xB, decode_rdWord 0xC, decode_rdWord 0xD,
    decode_rdWord 0xE, decode_rdWord 0xF⟩, fun s => ?_⟩
  have hsample (c : Channel) := exec_rd_of_view (.sample c) (view_sample_eq_ofNat s c)
  have henc (w : Wheel) := exec_rd_of_view (.enc w) (view_enc_eq_ofInt s w)
  have havg (w : Wheel) := exec_rd_of_view (.avg w) (view_avg_eq_ofNat s w)
  exact ⟨exec_rd_of_view .ctrl (view_ctrl_eq_ofNat s),
    exec_rd_of_view .status (view_status_eq_ofNat s),
    hsample .wheelL, hsample .wheelR, hsample .switches, hsample .irL, hsample .irR,
    hsample .battery, henc .left, henc .right, havg .left, havg .right,
    exec_rd_of_view .edge (view_edge_eq_ofNat s), exec_rd_of_view .tbTick (view_tbTick_eq_ofNat s),
    exec_rd_of_view .tbElapsed rfl, exec_rd15 s⟩

/-- Settles O11: both accesses to r = 0xF record their fault, by the meaning of each. -/
theorem unmappedAccessIsRecorded : Obligations.UnmappedAccessIsRecorded :=
  ⟨decode_wrWord 0xF, decode_rdWord 0xF, fun s v => ⟨exec_rd15 s, exec_wr15 s v⟩⟩

/-- Settles O13: WR CTRL is a start, a stop or neither. -/
theorem writeCtrl : Obligations.WriteCtrl :=
  ⟨decode_wrWord 0x0, fun s v => congrArg Host.Outcome.next (writeCtrl_eq_ite s v)⟩

/-- Settles O14: a Boolean kept unless bit 0 clears it is the rule's choice by that bit. -/
theorem writeStatus : Obligations.WriteStatus :=
  ⟨decode_wrWord 0x1, fun s v => congrArg Host.Outcome.next (writeStatus_eq s v)⟩

/-- Settles O15: each WR sets its own wheel's counter, to the pattern of the number written. -/
theorem writeEnc : Obligations.WriteEnc := by
  refine ⟨fun v => ⟨decode_wrWord 0x8 v, decode_wrWord 0x9 v⟩, fun s v => ?_⟩
  rw [BitVec.ofInt_toInt]
  exact ⟨rfl, rfl⟩

/-- Settles O16: each of the eleven is the WR of a register whose access right is read-only. -/
theorem writeReadOnlyRegister : Obligations.WriteReadOnlyRegister := by
  intro s v
  have hsample (c : Channel) := exec_wrOf_readOnly s (.sample c) v rfl
  have havg (w : Wheel) := exec_wrOf_readOnly s (.avg w) v rfl
  exact ⟨hsample .wheelL, hsample .wheelR, hsample .switches, hsample .irL, hsample .irR,
    hsample .battery, havg .left, havg .right, exec_wrOf_readOnly s .edge v rfl,
    exec_wrOf_readOnly s .tbTick v rfl, exec_wrOf_readOnly s .tbElapsed v rfl⟩

end Sys2Proof.Machine

/-! ### Faults and pulses, transaction by transaction -/

namespace Sys2Proof.Machine

/-- Only the two accesses to r = 0xF write the fault record (R161, R180). -/
theorem faultRecord_of_exec {i : Instr} {s t : State} (h : exec i s = .next t) (hrd : i ≠ .rd15)
    (hwr : ∀ v, i ≠ .wr15 v) : t.faulted = s.faulted ∧ t.faults = s.faults := by
  cases i
  case rd15 => exact absurd rfl hrd
  case wr15 v => exact absurd rfl (hwr v)
  case wrCtrl v => cases h; exact ⟨State.writeCtrl_faulted s v, State.writeCtrl_faults s v⟩
  case conv raw =>
    obtain ⟨-, rfl⟩ := run_and_eq_of_exec_conv h
    simp only [completeConversion_fields, and_self]
  all_goals cases h; exact ⟨rfl, rfl⟩

/-- A transaction its agent can take completes, and any other is an EV_CONV while RUN = 0, which is
refused (R110). -/
theorem exec_ne_fault (i : Instr) (s : State) (f : Fault) : exec i s ≠ .fault f := by
  cases henabled : s.enabled i
  · cases i
    case conv raw => rw [exec_conv_of_stopped raw henabled]; exact nofun
    all_goals cases henabled
  · obtain ⟨t, ht⟩ := exists_next_of_enabled henabled
    rw [ht]; exact nofun

theorem step_ne_fault (s : State) (f : Fault) : step s ≠ .fault f := by
  unfold step
  split
  · exact exec_ne_fault _ _ f
  · exact nofun

/-- Settles O33: the fault record transaction by transaction, and the outcomes of `exec` and
`step`. -/
theorem mappedTransactionsNeverFault : Obligations.MappedTransactionsNeverFault :=
  ⟨fun _ _ _ => faultRecord_of_exec, exec_ne_fault, step_ne_fault⟩

/-- No host transaction pulses an event output (R184). -/
theorem pulses_of_exec_of_not_event {i : Instr} {s t : State} (h : exec i s = .next t)
    (hi : isEvent i = false) : t.pulses = s.pulses := by
  by_cases hr : i = .reset
  · subst hr; cases h; exact State.resetRegs_pulses s
  · cases txnEffect_of_exec h hr with
    | conv | tick => cases hi
    | ctrl | status | enc | quiet => simp

/-- Settles O34: each event by its own law, and every other transaction because it is no event. -/
theorem pulsesOncePerEvent : Obligations.PulsesOncePerEvent := by
  intro i s t h
  cases i
  case conv raw =>
    obtain ⟨-, rfl⟩ := run_and_eq_of_exec_conv h
    simp only [completeConversion_fields]
  case tb => cases h; exact State.pulse_pulses ..
  all_goals exact (pulses_of_exec_of_not_event h rfl).trans (List.append_nil _).symm

end Sys2Proof.Machine

/-! ### Runs cut in two -/

namespace Sys2Proof.Machine

/-- A schedule in two parts that is taken to its end takes the first part and then the second. -/
theorem execAll_append_cases {is js : List Instr} {s u : State}
    (h : execAll (is ++ js) s = .next u) :
    ∃ t, execAll is s = .next t ∧ execAll js t = .next u := by
  induction is generalizing s with
  | nil => exact ⟨s, rfl, h⟩
  | cons i is ih =>
    obtain ⟨m, hexec, hrest⟩ := execAll_cons_cases h
    obtain ⟨t, hfst, hsnd⟩ := ih hrest
    exact ⟨t, (execAll_cons_next hexec).trans hfst, hsnd⟩

theorem convResults_length_append (is js : List Instr) :
    (convResults (is ++ js)).length = (convResults is).length + (convResults js).length := by
  induction is with
  | nil => exact (Nat.zero_add _).symm
  | cons i is ih =>
    rw [List.cons_append, convResults_length_cons, ih, convResults_length_cons i is, Nat.add_assoc]

/-- A run between two starts is one in each of its parts (R118). -/
theorem noRestart_append_cases {is js : List Instr} {s t : State}
    (hno : noRestart (is ++ js) s = true) (h : execAll is s = .next t) :
    noRestart is s = true ∧ noRestart js t = true := by
  induction is generalizing s with
  | nil => cases h; exact ⟨rfl, hno⟩
  | cons i is ih =>
    obtain ⟨m, hexec, hrest⟩ := execAll_cons_cases h
    obtain ⟨hr, hstart, hno⟩ := noRestart_cons_cases hno hexec
    obtain ⟨hfst, hsnd⟩ := ih hno hrest
    exact ⟨by simp [noRestart, hexec, hr, hstart, hfst], hsnd⟩

/-! ### The first valid samples -/

/-- STATUS shows CUR above its bit 0 (R28). -/
theorem view_status_toNat_div_two (s : State) :
    (view s .status).toNat / 2 = (channelCode s.cur).toNat := by
  have hcur := channelCode_toNat_le s.cur
  have hswp := Bool.toNat_le s.swp
  rw [view_status_eq_ofNat, BitVec.toNat_ofNat]
  omega

/-- Settles O43: CUR = 5 needs five EV_CONV since the start, and to leave it needs one more. -/
theorem firstValidSamples : Obligations.FirstValidSamples := by
  intro v s t u w before after hstart hexec hno hbefore hafter hu hw
  obtain ⟨hnoBefore, hnoAfter⟩ := noRestart_append_cases hno hbefore
  obtain ⟨hcurU, -⟩ := cur_samples_since_start hstart hexec hnoBefore hbefore
  obtain ⟨hcurW, -⟩ := cur_samples_of_execAll hnoAfter hafter
  rw [view_status_toNat_div_two] at hu hw
  have hfive : (convResults before).length % 6 = 5 := (eq_advanceBy_wheelL_iff.mp hcurU) ▸ hu
  have hmoved : (convResults after).length ≠ 0 := fun hzero => by
    rw [hcurW, hzero] at hw
    exact hw hu
  rw [convResults_length_append]
  omega

/-! ### The counters set while the gate is closed -/

/-- Neither RESET nor WR CTRL, the two transactions that write AUTOENC (R36). -/
def KeepsGate (i : Instr) : Prop := i ≠ .reset ∧ ∀ v, i ≠ .wrCtrl v

theorem autoenc_of_execAll {txns : List Instr} {s t : State} (h : execAll txns s = .next t)
    (hall : ∀ i ∈ txns, KeepsGate i) : t.autoenc = s.autoenc := by
  induction txns generalizing s with
  | nil => cases h; rfl
  | cons i is ih =>
    obtain ⟨u, hexec, hrest⟩ := execAll_cons_cases h
    obtain ⟨⟨hr, hctrl⟩, hall⟩ := List.forall_mem_cons.mp hall
    obtain ⟨hauto, -⟩ := (txnEffect_of_exec hexec hr).wrCtrl_or_ctrl_eq.resolve_left
      fun ⟨v, hi⟩ => hctrl v hi
    exact (ih hrest hall).trans hauto

theorem exec_wrEncOf (w : Wheel) (v : RegVal) (s : State) :
    exec (wrEncOf w v) s = .next (s.setEnc w v) := by cases w <;> rfl

/-- A counter set while the gate is closed keeps its value for as long as the gate stays closed and
the counter is not written again (R139, R158). -/
theorem enc_of_set_with_gate_off {w : Wheel} {v : RegVal} {pre post : List Instr} {s t : State}
    (ha : s.autoenc = false) (h : execAll (pre ++ wrEncOf w v :: post) s = .next t)
    (hpre : ∀ i ∈ pre, KeepsGate i)
    (hpost : ∀ i ∈ post, KeepsGate i ∧ ∀ v, i ≠ wrEncOf w v) : (t.wheel w).enc = v := by
  obtain ⟨m, hm, hset⟩ := execAll_append_cases h
  rw [execAll_cons_next (exec_wrEncOf w v m)] at hset
  have hgate : (m.setEnc w v).autoenc = false := by
    rw [State.setEnc_autoenc, autoenc_of_execAll hm hpre, ha]
  rw [wheel_of_execAll_gate_off hgate hset fun i hi =>
    let ⟨⟨hr, hctrl⟩, henc⟩ := hpost i hi
    ⟨hr, fun v => ⟨hctrl v, henc v⟩⟩]
  cases w <;> rfl

theorem keepsGate_wrEncOf (w : Wheel) (v : RegVal) : KeepsGate (wrEncOf w v) := by
  cases w <;> exact ⟨nofun, nofun⟩

/-- An event neither writes the gate nor sets a counter. -/
theorem keepsGate_of_event {i : Instr} (h : i = .tb ∨ ∃ raw, i = .conv raw) :
    KeepsGate i ∧ ∀ w v, i ≠ wrEncOf w v := by
  obtain rfl | ⟨raw, rfl⟩ := h <;> exact ⟨⟨nofun, nofun⟩, fun w => by cases w <;> nofun⟩

/-- Settles O45: ENCOFF closes the gate, each counter keeps what it is set to, and ENCON changes no
counter. -/
theorem closedGateSetsThePair : Obligations.ClosedGateSetsThePair := by
  intro s t a b gap₁ gap₂ gap₃ hgaps h
  have hevents := fun i hi => keepsGate_of_event (hgaps i hi)
  obtain ⟨hgaps, hgap₃⟩ := List.forall_mem_append.mp hevents
  obtain ⟨hgap₁, hgap₂⟩ := List.forall_mem_append.mp hgaps
  obtain ⟨m, hmid, hopen⟩ := execAll_append_cases h
  cases hopen
  have hleft : execAll (gap₁ ++ wrEncOf .left a :: (gap₂ ++ wrEncOf .right b :: gap₃))
      (s.writeCtrl 2) = .next m := by
    simp only [List.append_assoc] at hmid
    exact hmid
  have hright : execAll ((gap₁ ++ wrEncOf .left a :: gap₂) ++ wrEncOf .right b :: gap₃)
      (s.writeCtrl 2) = .next m := by
    rwa [List.append_assoc, List.cons_append]
  have hgate : (s.writeCtrl 2).autoenc = false := State.writeCtrl_autoenc s 2
  have hpre : ∀ i ∈ gap₁ ++ wrEncOf .left a :: gap₂, KeepsGate i :=
    List.forall_mem_append.mpr ⟨fun i hi => (hgap₁ i hi).1,
      List.forall_mem_cons.mpr ⟨keepsGate_wrEncOf .left a, fun i hi => (hgap₂ i hi).1⟩⟩
  have hpost : ∀ i ∈ gap₂ ++ wrEncOf .right b :: gap₃, KeepsGate i ∧ ∀ v, i ≠ wrEncOf .left v :=
    List.forall_mem_append.mpr ⟨fun i hi => (hgap₂ i hi).imp_right (· .left),
      List.forall_mem_cons.mpr
        ⟨⟨keepsGate_wrEncOf .right b, nofun⟩, fun i hi => (hgap₃ i hi).imp_right (· .left)⟩⟩
  rw [State.writeCtrl_wheelL, State.writeCtrl_wheelR]
  exact ⟨enc_of_set_with_gate_off (w := .left) hgate hleft (fun i hi => (hgap₁ i hi).1) hpost,
    enc_of_set_with_gate_off (w := .right) hgate hright hpre
      fun i hi => (hgap₃ i hi).imp_right (· .right)⟩

/-! ### Reading a counter and setting it to 0 -/

/-- A RD of a counter, an EV_CONV that ticks it and a WR of 0 to it (R206). -/
theorem read_tick_reset {s : State} {raw : Raw} {w : Wheel} (hrun : s.run = true)
    (ha : s.autoenc = true) (hcur : wheelOf s.cur = some w)
    (hticks : ticksOn raw (s.wheel w) = true) :
    ∃ t u v, exec (rdOf (regNumber (.enc w))) s = .next t ∧ t.reply = some (s.wheel w).enc ∧
      exec (.conv raw) t = .next u ∧ (u.wheel w).enc = (s.wheel w).enc + 1 ∧
      exec (wrEncOf w 0) u = .next v ∧ (v.wheel w).enc = 0 := by
  refine ⟨_, _, _, exec_rdOf_regNumber (.enc w) s, rfl, exec_conv_of_run raw hrun, ?_,
    exec_wrEncOf w 0 _, by cases w <;> rfl⟩
  have hread : (s.returnValue (view s (.enc w))).wheel w = s.wheel w := by cases w <;> rfl
  have hgate : wheelOf (s.returnValue (view s (.enc w))).cur = some w ∧
      (s.returnValue (view s (.enc w))).autoenc = true := ⟨hcur, ha⟩
  rw [completeConversion_wheel, if_pos hgate, hread, edgeUpdate_enc, if_pos hticks]

/-- Settles O44: the RD returns the count before the tick, and the WR overwrites the count after
it. -/
theorem readThenResetLosesTick : Obligations.ReadThenResetLosesTick := by
  intro s raw w hrun ha hcur hticks
  cases w
  · exact read_tick_reset hrun ha (by rw [hcur]; rfl) hticks
  · exact read_tick_reset hrun ha (by rw [hcur]; rfl) hticks

/-! ### The start-up order -/

theorem writeCtrl_of_start {s : State} {v : RegVal} (hs : s.run = false) (hv : runBit v = true) :
    s.writeCtrl v = { s with
      autoenc := autoencBit v, run := true, cur := .wheelL, inFlight := some .wheelL } := by
  rw [writeCtrl_eq_ite, if_pos ⟨hs, hv⟩]

/-- CTRL as the start-up order writes it: RUN set, AUTOENC as asked (R201). -/
theorem autoencBit_runBit_of_startUp (gate : Bool) : autoencBit (if gate then 3 else 2) = gate ∧
    runBit (if gate then 3 else 2) = true := by cases gate <;> decide

/-- Settles O50: the counters and SWP are set while RUN = 0, and the WR CTRL is a start. -/
theorem startUpOrder : Obligations.StartUpOrder := by
  intro s a b gate hrun
  obtain ⟨hgate, hstart⟩ := autoencBit_runBit_of_startUp gate
  have hclear : clearSwpBit 1 = true := by decide
  have hstopped : (((s.setEnc .left a).setEnc .right b).writeStatus 1).run = false := hrun
  calc execAll (bootSequence a b gate) s
    _ = .next ((((s.setEnc .left a).setEnc .right b).writeStatus 1).writeCtrl
          (if gate then 3 else 2)) := rfl
    _ = _ := by
      rw [writeCtrl_of_start hstopped hstart, hgate, writeStatus_eq, if_pos hclear]
      rfl

/-! ### The safe reading of the time -/

theorem timeTotal_div_256 (s : State) : timeTotal s / 256 = (view s .tbElapsed).toNat := by
  have htick : s.tbTick.toNat < 256 := s.tbTick.isLt
  have hview : view s .tbElapsed = s.tbElapsed := rfl
  rw [timeTotal, hview]
  omega

/-- To bring TB_ELAPSED past its value and back to it takes more than 2^24 - 256 EV_TB (R102). -/
theorem view_tbElapsed_between {s t u : State} {a b : Nat}
    (ht : timeTotal t = (timeTotal s + a) % 2 ^ 24) (hu : timeTotal u = (timeTotal t + b) % 2 ^ 24)
    (hcount : a + b ≤ 2 ^ 24 - 256) (hsame : view u .tbElapsed = view s .tbElapsed) :
    view t .tbElapsed = view s .tbElapsed := by
  have hlt := timeTotal_lt s
  rw [← BitVec.toNat_inj, ← timeTotal_div_256, ← timeTotal_div_256] at hsame ⊢
  omega

/-- Settles O47: each part of the run adds its EV_TB to the count. -/
theorem safeTimeReading : Obligations.SafeTimeReading := by
  intro s t u before after hrBefore hrAfter hbefore hafter hcount hsame
  rw [List.count_append] at hcount
  exact view_tbElapsed_between (timeTotal_of_execAll hrBefore hbefore)
    (timeTotal_of_execAll hrAfter hafter) hcount hsame

/-! ### Infinite runs -/

section Recurrence

variable {α : Type} {f : Nat → α} {g : α → α} {P : Nat → Prop} {k : Nat}

/-- A value that moves by `g` at the points where `P` holds, and stays at the others, moves once
more after any point when `P` holds again. -/
theorem exists_ge_eq_apply (hmove : ∀ n, k ≤ n → P n → f (n + 1) = g (f n))
    (hstay : ∀ n, k ≤ n → ¬ P n → f (n + 1) = f n) (hagain : ∀ n, ∃ m, n ≤ m ∧ P m) {n : Nat}
    (hn : k ≤ n) : ∃ m, n ≤ m ∧ f m = g (f n) := by
  obtain ⟨m, hnm, hm⟩ := hagain n
  obtain ⟨d, rfl⟩ := Nat.exists_eq_add_of_le hnm
  induction d generalizing n with
  | zero => exact ⟨n + 1, n.le_succ, hmove n hn hm⟩
  | succ d ih =>
    by_cases hP : P n
    · exact ⟨n + 1, n.le_succ, hmove n hn hP⟩
    · obtain ⟨m, hm, hfm⟩ := ih (hn.trans n.le_succ) (Nat.le_add_right ..)
        (by rwa [Nat.succ_add_eq_add_succ])
      exact ⟨m, n.le_succ.trans hm, by rw [hfm, hstay n hn hP]⟩

/-- It then moves any number of times after any point. -/
theorem exists_ge_eq_iterate (hmove : ∀ n, k ≤ n → P n → f (n + 1) = g (f n))
    (hstay : ∀ n, k ≤ n → ¬ P n → f (n + 1) = f n) (hagain : ∀ n, ∃ m, n ≤ m ∧ P m) {n : Nat}
    (hn : k ≤ n) (j : Nat) : ∃ m, n ≤ m ∧ f m = g^[j] (f n) := by
  induction j with
  | zero => exact ⟨n, le_rfl, rfl⟩
  | succ j ih =>
    obtain ⟨m, hnm, hm⟩ := ih
    obtain ⟨m', hmm', hm'⟩ := exists_ge_eq_apply hmove hstay hagain (hn.trans hnm)
    exact ⟨m', hnm.trans hmm', by rw [hm', hm, Function.iterate_succ_apply']⟩

end Recurrence

/-- Only EV_TB moves TB_TICK, by one modulo 2^8 (R36, R101). -/
theorem tbTick_toNat_of_exec {i : Instr} {s t : State} (h : exec i s = .next t) (hr : i ≠ .reset) :
    t.tbTick.toNat = if i = .tb then (s.tbTick.toNat + 1) % 256 else s.tbTick.toNat := by
  split
  · next hi =>
    subst hi
    cases h
    exact tickTimeBase_tbTick_toNat s
  · next hi => rw [((txnEffect_of_exec h hr).tb_or_time_eq.resolve_left hi).1]

/-- The count of TB_TICK modulo 2^8 (R101). -/
def nextTick (tick : Nat) : Nat := (tick + 1) % 256

theorem iterate_nextTick (n tick : Nat) : nextTick^[n] tick % 256 = (tick + n) % 256 := by
  induction n with
  | zero => rfl
  | succ n ih =>
    rw [Function.iterate_succ_apply', nextTick]
    omega

/-- Settles O48: TB_TICK moves again and again, so at some later state it has moved by exactly n. -/
theorem fairTimeBaseEndsWaits : Obligations.FairTimeBaseEndsWaits := by
  intro σ txns hrun hfair hr k n _ hn
  have htick := fun m => tbTick_toNat_of_exec (hrun m) (hr m)
  obtain ⟨m, hkm, hm⟩ := exists_ge_eq_iterate (f := fun m => (σ m).tbTick.toNat) (g := nextTick)
    (fun m _ htb => (htick m).trans (if_pos htb)) (fun m _ htb => (htick m).trans (if_neg htb))
    hfair k.zero_le n
  have hmod := iterate_nextTick n (σ k).tbTick.toNat
  refine ⟨m, hkm, (waitTbDone_iff ..).mpr ?_⟩
  rw [view_tbTick_toNat, view_tbTick_toNat, hm]
  omega

/-- While RUN stays 1, CUR moves by EV_CONV alone, to the next channel (R22). -/
theorem cur_of_exec_running {i : Instr} {s t : State} (h : exec i s = .next t) (hs : s.run = true)
    (ht : t.run = true) : (∃ raw, i = .conv raw) ∧ t.cur = nextChannel s.cur ∨
      (¬ ∃ raw, i = .conv raw) ∧ t.cur = s.cur := by
  by_cases hi : ∃ raw, i = .conv raw
  · obtain ⟨raw, rfl⟩ := hi
    obtain ⟨-, rfl⟩ := run_and_eq_of_exec_conv h
    exact .inl ⟨⟨raw, rfl⟩, (completeConversion_fields s raw).1⟩
  · have hr : i ≠ .reset := fun hr => by subst hr; cases h; cases ht
    refine .inr ⟨hi, by_contra fun hcur => ?_⟩
    obtain ⟨-, -, hstopped, -⟩ := ((txnEffect_of_exec h hr).cur_writer hcur).resolve_left hi
    exact Bool.false_ne_true (hstopped.symm.trans hs)

theorem advanceBy_eq_iterate (n : Nat) (c : Channel) : advanceBy n c = nextChannel^[n] c := by
  induction n generalizing c with
  | zero => rfl
  | succ n ih => exact ih (nextChannel c)

theorem exists_advanceBy_eq (c d : Channel) : ∃ n, advanceBy n c = d := by
  have hc := channelCode_toNat_le c
  have hd := channelCode_toNat_le d
  refine ⟨(channelCode d).toNat + 6 - (channelCode c).toNat, channelCode_injective ?_⟩
  rw [channelCode_advanceBy]
  omega

/-- A run that begins with the conversion in flight in order keeps it so (R38). -/
theorem flightOk_of_isRun {σ : Nat → State} {txns : Nat → Instr} (hrun : IsRun σ txns)
    (h : (σ 0).flightOk) (n : Nat) : (σ n).flightOk := by
  induction n with
  | zero => exact h
  | succ n ih => exact (exec_next_cases (hrun n)).keeps_flightOk ih

/-- Settles O49: from where RUN stays 1, CUR moves to the next channel again and again. -/
theorem fairConverterReachesEveryChannel : Obligations.FairConverterReachesEveryChannel := by
  intro σ txns hrun hfair hon n c
  obtain ⟨k, hk⟩ := hon
  have hcur := fun m (hm : k ≤ m) =>
    cur_of_exec_running (hrun m) (hk m hm) (hk (m + 1) (hm.trans m.le_succ))
  have hmove : ∀ m, k ≤ m → (∃ raw, txns m = .conv raw) → (σ (m + 1)).cur = nextChannel (σ m).cur :=
    fun m hm hi => by simpa [hi] using hcur m hm
  have hstay : ∀ m, k ≤ m → ¬ (∃ raw, txns m = .conv raw) → (σ (m + 1)).cur = (σ m).cur :=
    fun m hm hi => by simpa [hi] using hcur m hm
  have hagain : ∀ m, ∃ m', m ≤ m' ∧ ∃ raw, txns m' = .conv raw := fun m =>
    let ⟨m', raw, hle, hi⟩ := hfair ⟨k, hk⟩ m
    ⟨m', hle, raw, hi⟩
  obtain ⟨j, hj⟩ := exists_advanceBy_eq (σ (max n k)).cur c
  obtain ⟨m, hm, hmc⟩ := exists_ge_eq_iterate (f := fun m => (σ m).cur) hmove hstay hagain
    (le_max_right n k) j
  rw [← advanceBy_eq_iterate, hj] at hmc
  have hrunm := hk m ((le_max_right n k).trans hm)
  refine ⟨m, (le_max_left n k).trans hm, hrunm, hmc, fun h0 => ?_⟩
  rw [flightOk_of_isRun hrun h0 m, if_pos hrunm, hmc]

end Sys2Proof.Machine

/-! ### Reads and loops of host code -/

namespace Sys2Proof.Machine

/-- Where the code's next transaction is the RD of a register, it returns the register's view after
the gap and changes nothing else (R65, R150). -/
theorem takeNext_rd_cases {c : HostCode} {r : Reg} {gap : List Instr} {h h' : History}
    {s s' : State} (hnext : c.next h = some (rdOf (regNumber r)))
    (e : c.takeNext gap h s = some (h', s')) :
    ∃ u, execAll gap s = .next u ∧ h' = some (view u r) :: h ∧
      s' = { u with reply := some (view u r) } := by
  obtain ⟨i, u, hi, -, hgap, hexec, rfl⟩ := takeNext_cases e
  rw [hnext, Option.some_inj] at hi
  subst hi
  have hview : view u.returnNothing r = view u r := view_setReply u r none
  rw [exec_rdOf_regNumber, hview] at hexec
  cases hexec
  exact ⟨u, hgap, rfl, rfl⟩

theorem takeNext_rd_alone {c : HostCode} {r : Reg} {h : History} (s : State)
    (hnext : c.next h = some (rdOf (regNumber r))) :
    c.takeNext [] h s = some (some (view s r) :: h, { s with reply := some (view s r) }) := by
  rw [takeNext_alone, hnext, Option.bind_some, hostTxn_rdOf_regNumber]
  rfl

/-- A loop goes on in its pass, or leaves after a whole pass. -/
theorem loopCode_next (body : List Instr) (leave : History → Bool) (h : History) :
    (loopCode body leave).next h =
      if h ≠ [] ∧ h.length % body.length = 0 ∧ leave (h.take body.length) = true then none
      else body[h.length % body.length]? := by
  unfold loopCode
  simp [and_assoc]

/-- Whatever a loop takes next is the transaction of its body whose turn it is. -/
theorem loopCode_next_of_some {body : List Instr} {leave : History → Bool} {h : History} {i : Instr}
    (hnext : (loopCode body leave).next h = some i) : body[h.length % body.length]? = some i := by
  rw [loopCode_next] at hnext
  split at hnext
  · cases hnext
  · exact hnext

/-- A loop ends only after a whole pass that lets it leave. -/
theorem loopCode_ended_iff {body : List Instr} {leave : History → Bool} (hbody : body ≠ [])
    (h : History) : (loopCode body leave).next h = none ↔
      h ≠ [] ∧ h.length % body.length = 0 ∧ leave (h.take body.length) = true := by
  have hturn : h.length % body.length < body.length :=
    Nat.mod_lt _ (List.length_pos_of_ne_nil hbody)
  rw [loopCode_next]
  split
  · next hleave => exact iff_of_true rfl hleave
  · next hstay => exact iff_of_false (by simp [hturn]) hstay

/-- Where the body's turn is the RD of a register, what a loop takes is that RD. -/
theorem loopCode_takeNext_rd_cases {body : List Instr} {leave : History → Bool} {r : Reg}
    {gap : List Instr} {h h' : History} {s s' : State}
    (hturn : body[h.length % body.length]? = some (rdOf (regNumber r)))
    (e : (loopCode body leave).takeNext gap h s = some (h', s')) :
    ∃ u, execAll gap s = .next u ∧ h' = some (view u r) :: h ∧
      s' = { u with reply := some (view u r) } := by
  obtain ⟨i, -, hi, -⟩ := takeNext_cases e
  have hbody := loopCode_next_of_some hi
  rw [hturn] at hbody
  exact takeNext_rd_cases (hi.trans hbody.symm) e

/-! ### The passes of the safe reading -/

theorem timeReadDone_iff (l : History) : timeReadDone l = true ↔ ∃ e t, l = [e, t, e] := by
  unfold timeReadDone
  split
  · next e₂ t e₁ =>
    rw [beq_iff_eq]
    constructor
    · rintro rfl; exact ⟨_, _, rfl⟩
    · rintro ⟨_, _, h⟩; cases h; rfl
  · next hne =>
    constructor
    · nofun
    · rintro ⟨e, t, rfl⟩; exact absurd rfl (hne e t e)

/-- The safe reading ends after a whole pass whose two readings of TB_ELAPSED agree (R205). -/
theorem timeReadCode_ended_iff (h : History) : timeReadCode.next h = none ↔
    h.length % 3 = 0 ∧ ∃ e t rest, h = e :: t :: e :: rest := by
  have hleave : timeReadDone (h.take 3) = true ↔ ∃ e t rest, h = e :: t :: e :: rest := by
    rw [timeReadDone_iff]
    constructor
    · rintro ⟨e, t, htake⟩
      exact ⟨e, t, h.drop 3, by rw [← List.take_append_drop 3 h, htake]; rfl⟩
    · rintro ⟨e, t, rest, rfl⟩
      exact ⟨e, t, rfl⟩
  rw [timeReadCode, loopCode_ended_iff (by decide), ← hleave]
  constructor
  · rintro ⟨-, hlen, hdone⟩
    exact ⟨hlen, hdone⟩
  · rintro ⟨hlen, hdone⟩
    refine ⟨?_, hlen, hdone⟩
    rintro rfl
    cases hdone

/-- One pass of the safe reading: TB_ELAPSED, TB_TICK and TB_ELAPSED again, each as it stands after
the gap before its RD (R205). -/
theorem timeReadCode_pass_cases {g₁ g₂ g₃ : List Instr} {h h' : History} {s u : State}
    (hlen : h.length % 3 = 0) (e : timeReadCode.advance [g₁, g₂, g₃] h s = some (h', u)) :
    ∃ s₁ s₂ s₃, execAll g₁ s = .next s₁ ∧
      execAll g₂ { s₁ with reply := some (view s₁ .tbElapsed) } = .next s₂ ∧
      execAll g₃ { s₂ with reply := some (view s₂ .tbTick) } = .next s₃ ∧
      u = { s₃ with reply := some (view s₃ .tbElapsed) } ∧
      h' = some (view s₃ .tbElapsed) :: some (view s₂ .tbTick) :: some (view s₁ .tbElapsed) :: h ∧
      timeReadCode.advance [g₁, g₂] h s =
        some (some (view s₂ .tbTick) :: some (view s₁ .tbElapsed) :: h,
          { s₂ with reply := some (view s₂ .tbTick) }) := by
  obtain ⟨⟨h₁, t₁⟩, e₁, e⟩ := Option.bind_eq_some_iff.mp e
  obtain ⟨⟨h₂, t₂⟩, e₂, e⟩ := Option.bind_eq_some_iff.mp e
  obtain ⟨⟨h₃, t₃⟩, e₃, e⟩ := Option.bind_eq_some_iff.mp e
  cases e
  have hturn : ∀ k, timeReadPass[(h.length + k) % timeReadPass.length]? = timeReadPass[k % 3]? :=
    fun k => congrArg (timeReadPass[·]?) (show (h.length + k) % 3 = k % 3 by omega)
  obtain ⟨s₁, hs₁, rfl, rfl⟩ := loopCode_takeNext_rd_cases (r := .tbElapsed) (hturn 0) e₁
  obtain ⟨s₂, hs₂, rfl, rfl⟩ := loopCode_takeNext_rd_cases (r := .tbTick) (hturn 1) e₂
  obtain ⟨s₃, hs₃, rfl, rfl⟩ := loopCode_takeNext_rd_cases (r := .tbElapsed) (hturn 2) e₃
  refine ⟨s₁, s₂, s₃, hs₁, hs₂, hs₃, rfl, rfl, ?_⟩
  simp only [HostCode.advance, e₁, e₂, Option.bind_some]

theorem exists_eq_append_three {α : Type} {l : List α} {n : Nat} (h : n + 3 ≤ l.length) :
    ∃ pre a b c post, l = pre ++ a :: b :: c :: post ∧ pre.length = n := by
  refine ⟨l.take n, l[n], l[n + 1], l[n + 2], l.drop (n + 3), ?_, List.length_take_of_le (by omega)⟩
  rw [← List.drop_eq_getElem_cons, ← List.drop_eq_getElem_cons, ← List.drop_eq_getElem_cons,
    List.take_append_drop]

theorem timeTotal_eq_views (s : State) :
    timeTotal s = (view s .tbElapsed).toNat * 256 + (view s .tbTick).toNat := by
  rw [view_tbTick_toNat]
  rfl

/-- A safe reading that ends has taken a last whole pass, whose two readings of TB_ELAPSED agree. -/
theorem timeReadCode_run_cases {gaps : List (List Instr)} {s u : State} {h : History}
    (hrun : timeReadCode.run gaps [] s = some (h, u)) :
    ∃ pre g₁ g₂ g₃ post e t rest s₀, gaps = pre ++ g₁ :: g₂ :: g₃ :: post ∧
      h = e :: t :: e :: rest ∧ pre.length = rest.length ∧ rest.length % 3 = 0 ∧
      timeReadCode.advance pre [] s = some (rest, s₀) ∧
      timeReadCode.advance [g₁, g₂, g₃] rest s₀ = some (h, u) := by
  obtain ⟨hended, -, hlen, hadv⟩ := run_cases hrun
  obtain ⟨hmod, e, t, rest, rfl⟩ := (timeReadCode_ended_iff h).mp hended
  obtain ⟨pre, g₁, g₂, g₃, post, rfl, hpre⟩ :=
    exists_eq_append_three (n := rest.length) (hlen.trans_eq (Nat.zero_add _))
  have htake : (pre ++ g₁ :: g₂ :: g₃ :: post).take (rest.length + 3) = pre ++ [g₁, g₂, g₃] := by
    rw [← hpre, List.take_length_add_append]
    rfl
  have hthree := (congrArg (timeReadCode.advance · [] s) htake).symm.trans hadv
  rw [advance_append] at hthree
  obtain ⟨⟨h₀, s₀⟩, hadv₀, hpass⟩ := Option.bind_eq_some_iff.mp hthree
  have hlen₀ : h₀.length = rest.length := (advance_length hadv₀).trans ((Nat.zero_add _).trans hpre)
  have hmod₀ : rest.length % 3 = 0 := (Nat.add_mod_right ..).symm.trans hmod
  obtain ⟨_, _, _, -, -, -, -, hh, -⟩ := timeReadCode_pass_cases (hlen₀ ▸ hmod₀) hpass
  obtain ⟨-, -, -, rfl⟩ : _ ∧ _ ∧ _ ∧ rest = h₀ := by simpa only [List.cons.injEq] using hh
  exact ⟨pre, g₁, g₂, g₃, post, e, t, rest, s₀, rfl, rfl, hpre, hmod₀, hadv₀, hpass⟩

/-- Settles O53: the run ends with a pass; its readings of TB_ELAPSED are that of the moment its
TB_TICK was read, by the bound on its EV_TB. -/
theorem timeReadingIsOneMoment : Obligations.TimeReadingIsOneMoment := by
  intro gaps s u h hr hrun
  obtain ⟨pre, g₁, g₂, g₃, post, e, t, rest, s₀, rfl, rfl, hpre, hmod, hadv, hpass⟩ :=
    timeReadCode_run_cases hrun
  obtain ⟨s₁, s₂, s₃, -, hgap₂, hgap₃, rfl, hh, hmid⟩ := timeReadCode_pass_cases hmod hpass
  obtain ⟨he, rfl, he', -⟩ : e = some (view s₃ .tbElapsed) ∧ t = some (view s₂ .tbTick) ∧
      e = some (view s₁ .tbElapsed) ∧ rest = rest := by simpa only [List.cons.injEq] using hh
  subst he'
  refine ⟨view s₁ .tbElapsed, view s₂ .tbTick, rest, { s₂ with reply := some (view s₂ .tbTick) },
    rfl, by rw [timeReadLoop, hrun], ?_, fun hcount => ?_⟩
  · have htake : (pre ++ g₁ :: g₂ :: g₃ :: post).take (rest.length + 2) = pre ++ [g₁, g₂] := by
      rw [← hpre, List.take_length_add_append]
      rfl
    have htwo := advance_append timeReadCode pre [g₁, g₂] [] s
    rw [hadv, Option.bind_some, hmid] at htwo
    exact (congrArg (timeReadCode.advance · [] s) htake).trans htwo
  · have hdrop : ((pre ++ g₁ :: g₂ :: g₃ :: post).drop (rest.length + 1)).take 2 = [g₂, g₃] := by
      rw [← hpre, List.drop_length_add_append]
      rfl
    have hcount : g₂.count .tb + g₃.count .tb ≤ 2 ^ 24 - 256 := by
      have hflat := (congrArg (·.flatten.count .tb) hdrop).symm.le.trans hcount
      simpa using hflat
    have hcount₂ := timeTotal_of_execAll (hr g₂ (by simp)) hgap₂
    have hcount₃ := timeTotal_of_execAll (hr g₃ (by simp)) hgap₃
    have hmoment : view s₂ .tbElapsed = view s₁ .tbElapsed :=
      view_tbElapsed_between hcount₂ hcount₃ hcount (Option.some_inj.mp he).symm
    exact (timeTotal_eq_views s₂).trans (by rw [hmoment])

end Sys2Proof.Machine

/-! ### Host code that waits on events -/

namespace Sys2Proof.Machine

theorem State.EventVariant.refl (s : State) : s.EventVariant s := ⟨rfl, rfl, id, rfl, rfl, rfl⟩

/-- Code that on its own keeps a point of the kind `P` to go on from never ends, so it waits where
changes of event-written state let it end. -/
theorem waits_of_invariant {c : HostCode} {s : State} (P : History → State → Prop) (h0 : P [] s)
    (hstep : ∀ h t, P h t → ∃ r, c.takeNext [] h t = some r ∧ P r.1 r.2)
    (hend : ∃ n, c.CanReach none n [] s) : c.Waits := by
  have halone : ∀ n, ∃ r, c.advance (List.replicate n []) [] s = some r ∧ P r.1 r.2 := fun n => by
    induction n with
    | zero => exact ⟨_, rfl, h0⟩
    | succ n ih =>
      obtain ⟨r, hr, hP⟩ := ih
      obtain ⟨r', hr', hP'⟩ := hstep r.1 r.2 hP
      exact ⟨r', by simp [List.replicate_succ', advance_append, hr, HostCode.advance, hr'], hP'⟩
  refine ⟨[], s, [], s, none, nofun, rfl, fun n => ?_, hend⟩
  obtain ⟨r, hr, hP⟩ := halone n
  obtain ⟨r', hr', -⟩ := hstep r.1 r.2 hP
  exact ⟨r.1, r.2, hr, fun hended => by simp [takeNext_of_ended hended] at hr'⟩

/-- The register shows `v`, and every value read so far was `v`. -/
def HasReadAlways (r : Reg) (v : RegVal) (h : History) (s : State) : Prop :=
  view s r = v ∧ ∃ n, h = List.replicate n (some v)

/-- Code that on its own reads one register for ever waits where changes of event-written state let
it end. -/
theorem waits_of_reads {c : HostCode} {r : Reg} {s : State}
    (hread : ∀ n, c.next (List.replicate n (some (view s r))) = some (rdOf (regNumber r)))
    (hend : ∃ n, c.CanReach none n [] s) : c.Waits := by
  refine waits_of_invariant (HasReadAlways r (view s r)) ⟨rfl, 0, rfl⟩ ?_ hend
  rintro h t ⟨hview, n, rfl⟩
  refine ⟨_, takeNext_rd_alone t (hread n), (view_setReply ..).trans hview, n + 1, ?_⟩
  rw [hview, List.replicate_succ]

/-- Code that waits takes a transaction where it waits, and not the one it waits for. -/
theorem HostCode.WaitsFor.next_cases {c : HostCode} {act : Option Instr} {h : History} {s : State}
    (w : c.WaitsFor act h s) : ∃ i, c.next h = some i ∧ act ≠ some i := by
  obtain ⟨hnever, -⟩ := w
  obtain ⟨h₁, s₁, hadv, -⟩ := hnever 1
  obtain ⟨r, htake, -⟩ := Option.bind_eq_some_iff.mp hadv
  obtain ⟨i, -, hi, -⟩ := takeNext_cases htake
  obtain ⟨_, _, hadv, hne⟩ := hnever 0
  cases hadv
  exact ⟨i, hi, fun hact => hne (hi.trans hact.symm)⟩

/-! ### Code without a loop, and the safe reading of the time -/

/-- Code without a loop ends on its own. -/
theorem straightCode_not_waits (is : List Instr) : ¬ (straightCode is).Waits := by
  rintro ⟨gaps, s₀, h, s, act, -, -, w⟩
  obtain ⟨h', s', hadv, -⟩ := w.1 is.length
  refine w.not_ended hadv (List.getElem?_eq_none ?_)
  rw [advance_length hadv, List.length_replicate]
  exact Nat.le_add_left ..

/-- The safe reading ends on its own: once it has come to a new pass, nothing moves TB_ELAPSED
between the two readings of that pass. -/
theorem timeReadCode_not_waits : ¬ timeReadCode.Waits := by
  rintro ⟨gaps, s₀, h, s, act, -, -, w⟩
  obtain ⟨h', s', hadv, -⟩ := w.1 ((3 - h.length % 3) + 3)
  have hended := w.not_ended hadv
  rw [List.replicate_add, advance_append] at hadv
  obtain ⟨⟨h₁, s₁⟩, hadv₁, hpass⟩ := Option.bind_eq_some_iff.mp hadv
  have hlen := advance_length hadv₁
  rw [List.length_replicate] at hlen
  have hmod : h₁.length % 3 = 0 := by omega
  obtain ⟨t₁, t₂, t₃, ht₁, ht₂, ht₃, -, rfl, -⟩ := timeReadCode_pass_cases hmod hpass
  cases ht₁
  cases ht₂
  cases ht₃
  refine hended ((timeReadCode_ended_iff _).mpr ⟨?_, _, _, _, rfl⟩)
  exact (Nat.add_mod_right ..).trans hmod

/-! ### POLL -/

section Poll

variable {o : RegOperand} {mask val : RegVal}

/-- POLL leaves or reads on by the value read last (R96). -/
theorem pollCode_next_cons (v : RegVal) (h : History) : (pollCode o mask val).next (some v :: h) =
    if pollDone mask val v then none else some (rdOf (operandNumber o)) := rfl

theorem pollCode_next_cases (h : History) : (pollCode o mask val).next h = none ∨
    (pollCode o mask val).next h = some (rdOf (operandNumber o)) := by
  match h with
  | [] | none :: _ => exact .inr rfl
  | some v :: h =>
    rw [pollCode_next_cons]
    split
    · exact .inl rfl
    · exact .inr rfl

/-- A POLL that waits goes on reading, and waits for something else. -/
theorem pollCode_waitsFor_cases {act : Option Instr} {h : History} {s : State}
    (w : (pollCode o mask val).WaitsFor act h s) :
    (pollCode o mask val).next h = some (rdOf (operandNumber o)) ∧
      act ≠ some (rdOf (operandNumber o)) := by
  obtain ⟨i, hi, hact⟩ := w.next_cases
  have hread := (pollCode_next_cases h).resolve_left (hi ▸ Option.some_ne_none i)
  rw [hread, Option.some_inj] at hi
  exact ⟨hread, hi ▸ hact⟩

/-- What brings a POLL of a mapped register to anything but its next read is a value that lets it
leave. -/
theorem exists_pollDone_of_canReach {r : Reg} (ho : operandNumber o = regNumber r)
    {act : Option Instr} (hact : act ≠ some (rdOf (regNumber r))) {n : Nat} {h : History}
    {s : State} (hread : (pollCode o mask val).next h = some (rdOf (regNumber r)))
    (hreach : (pollCode o mask val).CanReach act n h s) :
    ∃ u, s.EventVariant u ∧ pollDone mask val (view u r) = true := by
  induction n generalizing h s with
  | zero => exact absurd (hreach.symm.trans hread) hact
  | succ n ih =>
    obtain ⟨u, h', s', hu, htake, hreach⟩ := hreach
    rw [takeNext_rd_alone u hread] at htake
    cases htake
    by_cases hdone : pollDone mask val (view u r) = true
    · exact ⟨u, hu, hdone⟩
    · obtain ⟨u', hu', hdone'⟩ := ih (by rw [pollCode_next_cons, if_neg hdone, ho]) hreach
      exact ⟨u', hu.trans (eventVariant_setReply.mp hu'), hdone'⟩

/-- A POLL of a mapped register waits exactly when some value does not let it leave, and
event-written state can change it to one that does. -/
theorem pollCode_waits_iff {r : Reg} (ho : operandNumber o = regNumber r) :
    (pollCode o mask val).Waits ↔ ∃ s u, s.EventVariant u ∧
      pollDone mask val (view s r) = false ∧ pollDone mask val (view u r) = true := by
  constructor
  · rintro ⟨gaps, s₀, h, s, act, -, -, w⟩
    obtain ⟨hread, hact⟩ := pollCode_waitsFor_cases w
    rw [ho] at hread hact
    obtain ⟨n, hreach⟩ := w.2
    obtain ⟨u, hu, hdone⟩ := exists_pollDone_of_canReach ho hact hread hreach
    refine ⟨s, u, hu, Bool.eq_false_iff.mpr fun hleave => ?_, hdone⟩
    have hadv : (pollCode o mask val).advance (List.replicate 1 []) h s =
        some (some (view s r) :: h, { s with reply := some (view s r) }) := by
      simp [HostCode.advance, takeNext_rd_alone s hread]
    exact w.not_ended hadv (by rw [pollCode_next_cons, if_pos hleave])
  · rintro ⟨s, u, hu, hstay, hleave⟩
    have hread : (pollCode o mask val).next [] = some (rdOf (regNumber r)) := by rw [← ho]; rfl
    refine waits_of_reads (r := r) (s := s) (fun n => ?_)
      ⟨1, u, _, _, hu, takeNext_rd_alone u hread, ?_⟩
    · cases n with
      | zero => exact hread
      | succ n => rw [List.replicate_succ, pollCode_next_cons, hstay, ho]; rfl
    · rw [HostCode.CanReach, pollCode_next_cons, if_pos hleave]

/-- A POLL of r = 0xF reads on for ever, whatever changes (R161, log entry 16). -/
theorem pollCode_rd15_not_waits (ho : rdOf (operandNumber o) = .rd15) :
    ¬ (pollCode o mask val).Waits := by
  rintro ⟨gaps, s₀, h, s, act, -, -, w⟩
  obtain ⟨hread, hact⟩ := pollCode_waitsFor_cases w
  obtain ⟨n, hreach⟩ := w.2
  clear w
  induction n generalizing h s with
  | zero => exact hact (hreach.symm.trans hread)
  | succ n ih =>
    obtain ⟨u, h', s', -, htake, hreach⟩ := hreach
    obtain ⟨i, v, hi, -, -, hexec, rfl⟩ := takeNext_cases htake
    rw [hread, Option.some_inj, ho] at hi
    subst hi
    cases hexec
    exact ih _ _ rfl hreach

end Poll

/-! ### The registers that events can change -/

/-- A field of `n` bits, as a mask of the register that holds it. -/
theorem setWidth_and_mask {n : Nat} (hn : n ≤ 16) (x : BitVec n) :
    x.setWidth 16 &&& BitVec.ofNat 16 (2 ^ n - 1) = x.setWidth 16 := by
  have hx := x.isLt
  have hpow : 2 ^ n ≤ 2 ^ 16 := Nat.pow_le_pow_right (by decide) hn
  apply BitVec.eq_of_toNat_eq
  rw [BitVec.toNat_and, BitVec.toNat_ofNat, BitVec.toNat_setWidth_of_le hn,
    Nat.mod_eq_of_lt (by omega), Nat.and_two_pow_sub_one_eq_mod, Nat.mod_eq_of_lt hx]

/-- A register's value within a field is read back from the field. -/
theorem setWidth_setWidth_of_and_mask {n : Nat} (hn : n ≤ 16) {v : RegVal}
    (hv : v &&& BitVec.ofNat 16 (2 ^ n - 1) = v) : (v.setWidth n).setWidth 16 = v := by
  have hpow : 2 ^ n ≤ 2 ^ 16 := Nat.pow_le_pow_right (by decide) hn
  have hlow := congrArg BitVec.toNat hv
  rw [BitVec.toNat_and, BitVec.toNat_ofNat, Nat.mod_eq_of_lt (by omega),
    Nat.and_two_pow_sub_one_eq_mod] at hlow
  apply BitVec.eq_of_toNat_eq
  rw [BitVec.toNat_setWidth_of_le hn, BitVec.toNat_setWidth, hlow]

/-- A read shows nothing outside the register's fields (R26). -/
theorem view_and_fieldBits {r : Reg} (hc : r ≠ .ctrl) (hs : r ≠ .status) (s : State) :
    view s r &&& fieldBits r = view s r := by
  cases r with
  | ctrl => exact absurd rfl hc
  | status => exact absurd rfl hs
  | sample c => exact setWidth_and_mask (by decide) _
  | avg w => exact setWidth_and_mask (by decide) _
  | edge => exact setWidth_and_mask (n := 2) (by decide) _
  | tbTick => exact setWidth_and_mask (by decide) _
  | enc | tbElapsed => exact BitVec.and_allOnes

/-- EDGE's sign for a bit (R32). -/
def signOfBit (b : Bool) : Sign := if b then .minus else .plus

theorem signBits_signOfBit : ∀ x : BitVec 2,
    signBit (signOfBit (x.getLsbD 1)) ++ signBit (signOfBit (x.getLsbD 0)) = x := by decide

/-- Events can bring a register that only they write to any value of its fields (R36). -/
theorem exists_eventVariant_view {r : Reg} (hc : r ≠ .ctrl) (hs : r ≠ .status) {v : RegVal}
    (hv : v &&& fieldBits r = v) (s : State) : ∃ u, s.EventVariant u ∧ view u r = v := by
  cases r with
  | ctrl => exact absurd rfl hc
  | status => exact absurd rfl hs
  | sample c =>
    refine ⟨s.setSample c (v.setWidth 10), ⟨rfl, rfl, id, rfl, rfl, rfl⟩, ?_⟩
    rw [view, State.setSample_sample, if_pos rfl]
    exact setWidth_setWidth_of_and_mask (by decide) hv
  | enc w =>
    refine ⟨s.setEnc w v, ?_, ?_⟩
    · cases w <;> exact ⟨rfl, rfl, id, rfl, rfl, rfl⟩
    · cases w <;> rfl
  | avg w =>
    refine ⟨s.setWheel w { s.wheel w with avg := v.setWidth 8 }, ?_, ?_⟩
    · cases w <;> exact ⟨rfl, rfl, id, rfl, rfl, rfl⟩
    · cases w <;> exact setWidth_setWidth_of_and_mask (by decide) hv
  | edge =>
    refine ⟨{ s with
      wheelL := { s.wheelL with sign := signOfBit ((v.setWidth 2).getLsbD 0) }
      wheelR := { s.wheelR with sign := signOfBit ((v.setWidth 2).getLsbD 1) } },
      ⟨rfl, rfl, id, rfl, rfl, rfl⟩, ?_⟩
    exact (congrArg (BitVec.setWidth 16) (signBits_signOfBit (v.setWidth 2))).trans
      (setWidth_setWidth_of_and_mask (by decide) hv)
  | tbTick => exact ⟨{ s with tbTick := v.setWidth 8 }, ⟨rfl, rfl, id, rfl, rfl, rfl⟩,
      setWidth_setWidth_of_and_mask (by decide) hv⟩
  | tbElapsed => exact ⟨{ s with tbElapsed := v }, ⟨rfl, rfl, id, rfl, rfl, rfl⟩, rfl⟩

theorem and_not_eq_zero_iff (x y : RegVal) : x &&& ~~~y = 0 ↔ x &&& y = x := by
  rw [BitVec.eq_of_getLsbD_eq_iff, BitVec.eq_of_getLsbD_eq_iff]
  refine forall_congr' fun k => forall_congr' fun hk => ?_
  simp only [BitVec.getLsbD_and, BitVec.getLsbD_not, hk, BitVec.ofNat_eq_ofNat, BitVec.getLsbD_zero]
  cases x.getLsbD k <;> cases y.getLsbD k <;> decide

/-- Of the values within some bits there is one that lets a POLL leave and one that does not exactly
when the POLL looks at some of these bits and asks for a value within those. -/
theorem exists_pollDone_and_not_iff (mask val bits : RegVal) :
    (val &&& ~~~(mask &&& bits) = 0 ∧ mask &&& bits ≠ 0) ↔
      ∃ v w, v &&& bits = v ∧ w &&& bits = w ∧ pollDone mask val v = false ∧
        pollDone mask val w = true := by
  have hmask : ∀ v : RegVal, v &&& bits = v → v &&& (mask &&& bits) = v &&& mask := fun v hv => by
    rw [BitVec.and_comm mask, ← BitVec.and_assoc, hv]
  simp only [pollDone, beq_eq_false_iff_ne, beq_iff_eq, and_not_eq_zero_iff]
  constructor
  · rintro ⟨hval, hne⟩
    have hbits : val &&& bits = val := by
      rw [← hval, BitVec.and_assoc, BitVec.and_assoc, BitVec.and_self]
    by_cases hzero : val = 0
    · refine ⟨mask &&& bits, val, by rw [BitVec.and_assoc, BitVec.and_self], hbits, ?_,
        (hmask val hbits).symm.trans hval⟩
      rwa [BitVec.and_comm, ← BitVec.and_assoc, BitVec.and_self, hzero]
    · refine ⟨0, val, BitVec.zero_and, hbits, ?_, (hmask val hbits).symm.trans hval⟩
      exact fun h => hzero (h.symm.trans BitVec.zero_and)
  · rintro ⟨v, w, hv, hw, hstay, rfl⟩
    refine ⟨?_, fun hzero => hstay ?_⟩
    · rw [← hmask w hw, BitVec.and_assoc, BitVec.and_self]
    · rw [← hmask v hv, ← hmask w hw, hzero]
      exact BitVec.and_zero.trans BitVec.and_zero.symm

/-- The decided form for a register other than CTRL and STATUS, which events write freely. -/
theorem regWaits_of_ne {mask val : RegVal} {r : Reg} (hc : r ≠ .ctrl) (hs : r ≠ .status) :
    regWaits mask val r = true ↔
      val &&& ~~~(mask &&& fieldBits r) = 0 ∧ mask &&& fieldBits r ≠ 0 := by
  cases r with
  | ctrl => exact absurd rfl hc
  | status => exact absurd rfl hs
  | _ => simp [regWaits]

/-- STATUS can read the value of every channel with SWP 0 and 1 (R28). -/
theorem mem_statusValues_iff (p : Bool) (v : RegVal) :
    (p, v) ∈ statusValues ↔ ∃ c, v = (channelCode c ++ BitVec.ofBool p).setWidth 16 := by
  have hchannel : ∀ c : Channel, c ∈ [.wheelL, .wheelR, .switches, .irL, .irR, .battery] :=
    fun c => by cases c <;> decide
  have hswp : ∀ p : Bool, p ∈ [false, true] := fun p => by cases p <;> decide
  simp only [statusValues, List.mem_flatMap, List.mem_map, Prod.mk.injEq]
  constructor
  · rintro ⟨c, -, p, -, rfl, rfl⟩
    exact ⟨c, rfl⟩
  · rintro ⟨c, rfl⟩
    exact ⟨c, hchannel c, p, hswp p, rfl, rfl⟩

theorem regWaits_status_iff (mask val : RegVal) : regWaits mask val .status = true ↔
    ∃ s u : State, s.EventVariant u ∧ pollDone mask val (view s .status) = false ∧
      pollDone mask val (view u .status) = true := by
  simp only [regWaits, List.any_eq_true, Bool.and_eq_true, Bool.not_eq_true', Bool.or_eq_true,
    Prod.exists]
  constructor
  · rintro ⟨p, v, hv, hstay, q, w, hw, hpq, hleave⟩
    obtain ⟨c, rfl⟩ := (mem_statusValues_iff p v).mp hv
    obtain ⟨d, rfl⟩ := (mem_statusValues_iff q w).mp hw
    refine ⟨{ State.reset with cur := c, swp := p }, { State.reset with cur := d, swp := q },
      ⟨rfl, rfl, ?_, rfl, rfl, rfl⟩, hstay, hleave⟩
    exact fun hp => hpq.resolve_left fun hp' => Bool.false_ne_true (hp'.symm.trans hp)
  · rintro ⟨s, u, hu, hstay, hleave⟩
    refine ⟨s.swp, _, (mem_statusValues_iff _ _).mpr ⟨s.cur, rfl⟩, hstay,
      u.swp, _, (mem_statusValues_iff _ _).mpr ⟨u.cur, rfl⟩, ?_, hleave⟩
    cases hp : s.swp
    · exact .inl rfl
    · exact .inr (hu.swp hp)

/-- The decided form for one register says that event-written state can change a value that does not
let the POLL leave to one that does. -/
theorem regWaits_iff (mask val : RegVal) (r : Reg) : regWaits mask val r = true ↔
    ∃ s u : State, s.EventVariant u ∧ pollDone mask val (view s r) = false ∧
      pollDone mask val (view u r) = true := by
  by_cases hc : r = .ctrl
  · subst hc
    refine iff_of_false Bool.false_ne_true ?_
    rintro ⟨s, u, hu, hstay, hleave⟩
    have hview : view u .ctrl = view s .ctrl := by
      rw [view_ctrl_eq_ofNat, view_ctrl_eq_ofNat, hu.run, hu.autoenc]
    exact Bool.false_ne_true (hstay.symm.trans (hview ▸ hleave))
  by_cases hs : r = .status
  · subst hs
    exact regWaits_status_iff mask val
  rw [regWaits_of_ne hc hs, exists_pollDone_and_not_iff]
  constructor
  · rintro ⟨v, w, hv, hw, hstay, hleave⟩
    obtain ⟨s, -, rfl⟩ := exists_eventVariant_view hc hs hv State.reset
    obtain ⟨u, hu, rfl⟩ := exists_eventVariant_view hc hs hw s
    exact ⟨s, u, hu, hstay, hleave⟩
  · rintro ⟨s, u, -, hstay, hleave⟩
    exact ⟨_, _, view_and_fieldBits hc hs s, view_and_fieldBits hc hs u, hstay, hleave⟩

/-! ### The pseudo-instructions and the other loops -/

theorem eq_regNumber_of_regOfNumber :
    ∀ n : RegNum, ∀ r ∈ regOfNumber n, n = regNumber r := by decide

theorem rdOf_of_unmapped : ∀ n : RegNum, regOfNumber n = none → rdOf n = .rd15 := by decide

/-- A loop that reads TB_TICK for ever while it stays, and leaves after two readings of it that
differ, waits. -/
theorem waits_of_tick_reads {c : HostCode} {x : BitVec 8}
    (hread : ∀ n, c.next (List.replicate n (some 0)) = some .rdTbTick)
    (hend : c.next [some (x.setWidth 16), some 0] = none) : c.Waits :=
  waits_of_reads (r := .tbTick) (s := State.reset) hread
    ⟨2, State.reset, _, _, .refl _, takeNext_rd_alone (r := .tbTick) _ (hread 0),
      { State.reset with tbTick := x, reply := some 0 }, _, _, ⟨rfl, rfl, id, rfl, rfl, rfl⟩,
      takeNext_rd_alone (r := .tbTick) _ (hread 1), hend⟩

/-- WAITTB compares the value read last with the oldest one (R96). -/
theorem waitTbCode_next_cons {n : Nat} {t t0 : RegVal} {h : History}
    (h0 : h.getLast? = some (some t0)) : (waitTbCode n).next (some t :: h) =
      if waitTbDone n t0 t then none else some .rdTbTick := by
  simp only [waitTbCode, List.head?_cons, List.tail_cons, h0]

theorem waitTbCode_waits {n : Nat} (h1 : 1 ≤ n) (h255 : n ≤ 255) : (waitTbCode n).Waits := by
  have hstay : waitTbDone n 0 0 = false := by
    rw [Bool.eq_false_iff, Ne, waitTbDone_iff]
    exact Int.not_le.mpr (Int.natCast_pos.mpr h1)
  have hleave : waitTbDone n 0 ((BitVec.ofNat 8 n).setWidth 16) = true := by
    rw [waitTbDone_iff, BitVec.toNat_setWidth_of_le (by decide), BitVec.toNat_ofNat]
    show (n : Int) ≤ ((n % 256 : Nat) - 0) % 256
    omega
  refine waits_of_tick_reads (x := BitVec.ofNat 8 n) (fun k => ?_) (if_pos hleave)
  match k with
  | 0 | 1 => rfl
  | k + 2 =>
    have hlast : (List.replicate (k + 1) (some (0 : RegVal))).getLast? = some (some 0) := by
      rw [List.getLast?_replicate, if_neg (Nat.succ_ne_zero k)]
    rw [List.replicate_succ, waitTbCode_next_cons hlast, hstay]
    rfl

theorem tickPairLoop_waits :
    (loopCode [.rdTbTick, .rdTbTick] fun h => h.head? != h.getLast?).Waits := by
  refine waits_of_tick_reads (x := 1) (fun n => ?_) (by decide)
  rw [loopCode_next, if_neg]
  · obtain hn | hn := Nat.mod_two_eq_zero_or_one n <;> simp [hn]
  · simp [List.take_replicate, List.head?_replicate, List.getLast?_replicate]

/-- The loop that clears the switch flag and reads STATUS until the flag is set (R212). -/
def clearThenReadLoop : HostCode :=
  loopCode [.wrStatus 1, .rdStatus] fun h => h.head?.any fun r => r.any fun v => v.getLsbD 0

/-- CLRSW clears the flag and returns nothing (R96, R157). -/
theorem hostTxn_clrSw (s : State) :
    hostTxn (.wrStatus 1) s = some (none, { s with swp := false, reply := none }) := by
  have hclear : swpAfterWrite 1 s.swp = false := Bool.and_false _
  have hexec : exec (.wrStatus 1) s.returnNothing =
      .next { s with swp := false, reply := none } := by
    rw [← hclear]
    rfl
  have hhost : (Instr.wrStatus 1).wellFormed .host = true := rfl
  rw [hostTxn, if_pos hhost, hexec]

theorem view_status_getLsbD_zero (s : State) : (view s .status).getLsbD 0 = s.swp := by
  rw [view, BitVec.getLsbD_setWidth, BitVec.getLsbD_append]
  simp

/-- The flag is clear, and the value read last, if any, showed it clear. -/
def SwpReadsClear (h : History) (s : State) : Prop :=
  s.swp = false ∧ ∀ v, h.head? = some (some v) → v.getLsbD 0 = false

theorem clearThenReadLoop_next {h : History} {s : State} (hclear : SwpReadsClear h s) :
    clearThenReadLoop.next h = [Instr.wrStatus 1, .rdStatus][h.length % 2]? := by
  rw [clearThenReadLoop, loopCode_next]
  refine if_neg ?_
  rintro ⟨hne, -, hset⟩
  obtain ⟨r, h, rfl⟩ := List.exists_cons_of_ne_nil hne
  cases r with
  | none => cases hset
  | some v => exact Bool.false_ne_true ((hclear.2 v rfl).symm.trans hset)

theorem clearThenReadLoop_takeNext {h : History} {s : State} (hclear : SwpReadsClear h s) :
    ∃ r, clearThenReadLoop.takeNext [] h s = some r ∧ SwpReadsClear r.1 r.2 := by
  have hnext := clearThenReadLoop_next hclear
  obtain hlen | hlen := Nat.mod_two_eq_zero_or_one h.length
  · rw [hlen] at hnext
    refine ⟨(none :: h, { s with swp := false, reply := none }), ?_, rfl, nofun⟩
    rw [takeNext_alone, hnext, List.getElem?_cons_zero, Option.bind_some, hostTxn_clrSw]
    rfl
  · rw [hlen] at hnext
    refine ⟨_, takeNext_rd_alone (r := .status) s hnext, hclear.1, fun v hv => ?_⟩
    cases hv
    exact (view_status_getLsbD_zero s).trans hclear.1

theorem clearThenReadLoop_waits : clearThenReadLoop.Waits := by
  have hstart : SwpReadsClear [] State.reset := ⟨rfl, nofun⟩
  refine waits_of_invariant SwpReadsClear hstart (fun h t => clearThenReadLoop_takeNext)
    ⟨2, State.reset, _, _, .refl _, rfl, { State.reset with swp := true }, _, _,
      ⟨rfl, rfl, fun _ => rfl, rfl, rfl, rfl⟩, takeNext_rd_alone (r := .status) _ rfl, rfl⟩

theorem pseudoCode_waits_iff {p : Pseudo} (hp : pseudoOk p = true) :
    (pseudoCode p).Waits ↔ waitsOnEvents p = true := by
  cases p with
  | poll r mask val =>
    cases hreg : regOfNumber (operandNumber r) with
    | some reg =>
      rw [waitsOnEvents, hreg, Option.any_some, regWaits_iff]
      exact pollCode_waits_iff (eq_regNumber_of_regOfNumber _ reg hreg)
    | none =>
      rw [waitsOnEvents, hreg]
      exact iff_of_false (pollCode_rd15_not_waits (rdOf_of_unmapped _ hreg)) Bool.false_ne_true
  | waitTb n =>
    obtain ⟨h1, h255⟩ : 1 ≤ n ∧ n ≤ 255 := by simpa [pseudoOk] using hp
    exact iff_of_true (waitTbCode_waits h1 h255) rfl
  | _ => exact iff_of_false (straightCode_not_waits _) Bool.false_ne_true

theorem hookAdmitted_singleton (c : HostCode) : hookAdmitted [c] ↔ ¬ c.Waits :=
  List.forall_mem_singleton

/-- Settles O54: each kind of pseudo-instruction, and each of the loops, by whether it waits. -/
theorem waitingHooksAreRefused : Obligations.WaitingHooksAreRefused := by
  refine ⟨fun p => pseudoCode_waits_iff, fun hook hok => ?_, ?_, ?_, ?_⟩
  · rw [hookAdmitted, List.forall_mem_map, pseudoHookAdmitted, List.all_eq_true]
    refine forall₂_congr fun p hp => ?_
    rw [pseudoCode_waits_iff (hok p hp), Bool.not_eq_true', Bool.not_eq_true]
  · rw [hookAdmitted_singleton, not_not]
    exact tickPairLoop_waits
  · rw [hookAdmitted_singleton, not_not]
    exact clearThenReadLoop_waits
  · rw [hookAdmitted_singleton]
    exact timeReadCode_not_waits

end Sys2Proof.Machine
